-- ==== Sys2Proof/Word.lean ====
section
/-! DEFINITION. The bit-vector types of the machine (R7 to R9 of spec/00_scope.md): a register, a memory word,
an address and a resource identifier are 32 bits wide; an instruction is made of 16-bit parcels. -/
namespace Sys2Proof

/-- A register, an address or a resource identifier (R8). -/
abbrev Word := BitVec 32

/-- The smallest addressable unit of memory (R90), and the value of a token (R401). -/
abbrev Byte := BitVec 8

/-- One 16-bit instruction parcel (R9). -/
abbrev Parcel := BitVec 16

/-- A word from a natural number, reduced mod 2^32 (R13). -/
def word (n : Nat) : Word := BitVec.ofNat 32 n

end Sys2Proof
end

