-- ==== Sys2Proof/Config.lean ====
section
/-! DEFINITION. What an implementation fixes (the parameters of R10, spec/00_scope.md), the port modes that the
platform's defaults are made of (R71, R452), and the free values: constants with no body, for what the spec leaves
unspecified although the machine goes on (log 11, 12, 13). -/
namespace Sys2Proof

/-- The two silicon revisions (R2). -/
inductive Revision where
  | a
  | b
deriving DecidableEq, Repr

/-- Exception types (R666). -/
inductive ExcType where
  /-- ET_LINK_ERROR, code 1. -/
  | linkError
  /-- ET_ILLEGAL_PC, code 2. -/
  | illegalPc
  /-- ET_ILLEGAL_INSTRUCTION, code 3. -/
  | illegalInstruction
  /-- ET_ILLEGAL_RESOURCE, code 4. -/
  | illegalResource
  /-- ET_LOAD_STORE, code 5. -/
  | loadStore
  /-- ET_ILLEGAL_PS, code 6. -/
  | illegalPs
  /-- ET_ARITHMETIC, code 7. -/
  | arithmetic
  /-- ET_ECALL, code 8. -/
  | ecall
  /-- ET_KCALL, code 15. -/
  | kcall
deriving DecidableEq, Repr

/-- Ready mode of a port (R71). -/
inductive RdyMode where
  | noReady
  | handshaken
  | strobed
deriving DecidableEq, Repr

/-- Buffering mode of a port (R71): SYNCHRONISED is the control value BUF_NOBUFFERS, BUFFERED is BUF_BUFFERS. -/
inductive BufMode where
  | synchronised
  | buffered
deriving DecidableEq, Repr

/-- Who starts a strobe (R71). -/
inductive MsMode where
  | slave
  | master
deriving DecidableEq, Repr

/-- Sampling edge (R71). -/
inductive SDelay where
  | noSDelay
  | sDelay
deriving DecidableEq, Repr

/-- What a port's pins carry (R71). -/
inductive PortType where
  | dataPort
  | clockPort
  | readyPort
deriving DecidableEq, Repr

/-- How a port drives its pins (R71). -/
inductive Drive where
  | drive
  | pullDown
  | pullUp
deriving DecidableEq, Repr

/-- Whether a 1-bit port inverts its data (R71). -/
inductive Invert where
  | noInvert
  | invert
deriving DecidableEq, Repr

/-- Event or interrupt mode (R52). -/
inductive IeMode where
  | event
  | interrupt
deriving DecidableEq, Repr

/-- Conditions of timers and ports (R53): `uncond` is the spec's NONE, which for a timer is UNCOND. -/
inductive Cond where
  | uncond
  | after
  | eq
  | neq
deriving DecidableEq, Repr

/-- The mode registers that SETC writes (R71). -/
structure PortModes where
  rdymode : RdyMode
  bufmode : BufMode
  msmode : MsMode
  sdelay : SDelay
  porttype : PortType
  drive : Drive
  invert : Invert
deriving DecidableEq, Repr

/-- Which state a processor-state register number reaches (R79, R600). -/
inductive PsKind where
  | rambase
  | dspc
  | dssr
  | dssp
  | dtype
  | dtid
  | dtreg
  | dbgint
  /-- A register of the platform with no name in the spec: a 32-bit cell. -/
  | cell
deriving DecidableEq, Repr

/-- One member of PS_REGS (R600). -/
structure PsReg where
  number : Nat
  kind : PsKind
  readOnly : Bool
deriving DecidableEq, Repr

/-- What a two-operand parcel has in bits 10..6 (`high`) and in bit 5 (`ext`), the bits that carry the high parts of its
operands (R136). -/
structure PairCode where
  high : Nat
  ext : Nat
deriving DecidableEq, Repr

/-- The nine-entry configuration table of R136: entry v, for v = a[3:2] * 3 + b[3:2] from 0 to 8, is what bits 10..5 of
the two-operand parcel with operands a and b are. -/
abbrev PairTable := Vector PairCode 9

/-- The parameters of R10 that are not counts of a resource, the table of R136 (G4 of
spec/93_implementation_defined.md), and two choices between rules that disagree (log 47, log 49): a count is the length of the list of State that
holds the resource. A State carries its platform and no step writes it, so that a statement about every state is a
statement about every platform (R10: no proof may depend on the defaults). -/
structure Platform where
  /-- REVISION. -/
  revision : Revision
  ramBase : Nat
  ramSize : Nat
  romBase : Nat
  romSize : Nat
  /-- DEBUG_ENTRY, where thread 0 goes on debug entry (R592). -/
  debugEntry : Word
  /-- RAM_END_SP, the value DENTSP loads into sp. -/
  ramEndSp : Word
  bootPc : Word
  kspBoot : Word
  /-- REF_HZ, the frequency of the reference clock in hertz: timing only, read by nothing (log 1). -/
  refHz : Nat
  /-- REF_CLK_ID (R69). -/
  refClkId : Word
  /-- DTYPE_DCALL (R82). -/
  dtypeDcall : Word
  /-- PS_REGS (R600). -/
  psRegs : List PsReg
  /-- CHANBUF_TOKENS. -/
  chanBuf : Nat
  /-- CHAN_FLIGHT_TOKENS. -/
  flightCap : Nat
  /-- NODE_ID. -/
  nodeId : BitVec 8
  /-- CORE_ID. -/
  coreId : BitVec 8
  /-- PRIV_TOKEN_TRAP (R413): the exception a privileged control token raises for a thread that is not in kernel
  mode; none where the platform raises none. -/
  privTrap : Option ExcType
  /-- The modes a port has after INUSE_ON (R453). -/
  portDefaults : PortModes
  /-- The condition a port has after INUSE_ON (R453). -/
  portCond : Cond
  /-- The event or interrupt mode a port has after INUSE_ON (R453). -/
  portIemode : IeMode
  /-- The two-operand register field (R136, G4; log 32). -/
  pairs : PairTable
  /-- INUSE_OFF of a port that is not in use raises, as R466 says; where false it is let through, as R357 says. The two
  rules disagree and no ruling settles it (log 47). -/
  offNeedsInuse : Bool
  /-- The ET_ILLEGAL_RESOURCE of a privileged control token goes before the ET_LINK_ERROR of an unset destination, as
  R680 says; where false it comes after it, as R411 says. The two rules disagree and no ruling settles it (log 49). -/
  valueFirst : Bool
deriving DecidableEq, Repr

/-- A 32-bit value the spec leaves unspecified; no proof can see what it is. The argument is the counter
`State.free` (log 11). -/
opaque Config.freeWord : Nat → Word

/-- A natural number the spec leaves unspecified; where a choice among finitely many is meant, it is reduced modulo
their number (log 11, 12, 13). -/
opaque Config.freeNat : Nat → Nat

end Sys2Proof
end

