-- ==== Sys2Proof/Syntax.lean ====
section
/-! DEFINITION. The instructions: one constructor of Instr per row of spec/opcode_table.json, named after its mnemonic
in lower case (IN is `in_`), its operands in the order of the manual's assembly (R18, R163). -/
namespace Sys2Proof

/-- A register operand, numbered as R33: 0..11 operand registers, 12 cp, 13 dp, 14 sp, 15 lr. -/
abbrev Reg := Fin 16

/-- An operand `us`, a value 0..11, or `bitp`, an index 0..11 into the table of R150. -/
abbrev Us := Fin 16

/-- The instructions of the XCore (R5). -/
inductive Instr where
  -- Data access (spec/40_data_access.md)
  /-- LDWSP D, u16, R202. -/
  | ldwsp (d : Reg) (u16 : BitVec 16)
  /-- STWSP S, u16, R203. -/
  | stwsp (src : Reg) (u16 : BitVec 16)
  /-- LDAWSP D, u16, R204. -/
  | ldawsp (d : Reg) (u16 : BitVec 16)
  /-- LDWDP D, u16, R205. -/
  | ldwdp (d : Reg) (u16 : BitVec 16)
  /-- STWDP S, u16, R206. -/
  | stwdp (src : Reg) (u16 : BitVec 16)
  /-- LDAWDP D, u16, R207. -/
  | ldawdp (d : Reg) (u16 : BitVec 16)
  /-- LDC D, u16, R208. -/
  | ldc (d : Reg) (u16 : BitVec 16)
  /-- LDWCP D, u16, R209. -/
  | ldwcp (d : Reg) (u16 : BitVec 16)
  /-- LDAWCP u16, R210. -/
  | ldawcp (u16 : BitVec 16)
  /-- LDWCPL u20, R211. -/
  | ldwcpl (u20 : BitVec 20)
  /-- LDAPF u20, R212. -/
  | ldapf (u20 : BitVec 20)
  /-- LDAPB u20, R213. -/
  | ldapb (u20 : BitVec 20)
  /-- LDWI d, b, us, R214. -/
  | ldwi (d b : Reg) (us : Us)
  /-- STWI s, b, us, R215. -/
  | stwi (src b : Reg) (us : Us)
  /-- LDAWFI d, b, us, R216. -/
  | ldawfi (d b : Reg) (us : Us)
  /-- LDAWBI d, b, us, R217. -/
  | ldawbi (d b : Reg) (us : Us)
  /-- LDW d, b, i, R218. -/
  | ldw (d b i : Reg)
  /-- STW s, b, i, R219. -/
  | stw (src b i : Reg)
  /-- LDAWF d, b, i, R220. -/
  | ldawf (d b i : Reg)
  /-- LDAWB d, b, i, R221. -/
  | ldawb (d b i : Reg)
  /-- LD16S d, b, i, R222. -/
  | ld16s (d b i : Reg)
  /-- ST16 s, b, i, R223. -/
  | st16 (src b i : Reg)
  /-- LDA16F d, b, i, R224. -/
  | lda16f (d b i : Reg)
  /-- LDA16B d, b, i, R225. -/
  | lda16b (d b i : Reg)
  /-- LD8U d, b, i, R226. -/
  | ld8u (d b i : Reg)
  /-- ST8 s, b, i, R227. -/
  | st8 (src b i : Reg)
  -- Expression evaluation (spec/41_expression.md)
  /-- ADD d, x, y, R261. -/
  | add (d x y : Reg)
  /-- ADDI d, x, us, R262. -/
  | addi (d x : Reg) (us : Us)
  /-- SUB d, x, y, R263. -/
  | sub (d x y : Reg)
  /-- SUBI d, x, us, R264. -/
  | subi (d x : Reg) (us : Us)
  /-- NEG d, s, R265. -/
  | neg (d src : Reg)
  /-- EQ c, x, y, R266. -/
  | eq (c x y : Reg)
  /-- EQI c, x, us, R267. -/
  | eqi (c x : Reg) (us : Us)
  /-- LSS c, x, y, R268. -/
  | lss (c x y : Reg)
  /-- LSU c, x, y, R269. -/
  | lsu (c x y : Reg)
  /-- AND d, x, y, R270. -/
  | and (d x y : Reg)
  /-- OR d, x, y, R271. -/
  | or (d x y : Reg)
  /-- XOR d, x, y, R272. -/
  | xor (d x y : Reg)
  /-- NOT d, s, R273. -/
  | not (d src : Reg)
  /-- ANDNOT d, s, R274. -/
  | andnot (d src : Reg)
  /-- SHL d, x, y, R275. -/
  | shl (d x y : Reg)
  /-- SHLI d, x, bitp, R276. -/
  | shli (d x : Reg) (bitp : Us)
  /-- SHR d, x, y, R277. -/
  | shr (d x y : Reg)
  /-- SHRI d, x, bitp, R278. -/
  | shri (d x : Reg) (bitp : Us)
  /-- ASHR d, x, y, R279. -/
  | ashr (d x y : Reg)
  /-- ASHRI d, x, bitp, R280. -/
  | ashri (d x : Reg) (bitp : Us)
  /-- MUL d, x, y, R281. -/
  | mul (d x y : Reg)
  /-- DIVS d, x, y, R282. -/
  | divs (d x y : Reg)
  /-- DIVU d, x, y, R283. -/
  | divu (d x y : Reg)
  /-- REMS d, x, y, R284. -/
  | rems (d x y : Reg)
  /-- REMU d, x, y, R285. -/
  | remu (d x y : Reg)
  /-- MKMSK d, s, R286. -/
  | mkmsk (d src : Reg)
  /-- MKMSKI d, bitp, R287. -/
  | mkmski (d : Reg) (bitp : Us)
  /-- SEXT d, s, R288. -/
  | sext (d src : Reg)
  /-- SEXTI d, bitp, R289. -/
  | sexti (d : Reg) (bitp : Us)
  /-- ZEXT d, s, R290. -/
  | zext (d src : Reg)
  /-- ZEXTI d, bitp, R291. -/
  | zexti (d : Reg) (bitp : Us)
  /-- BITREV d, s, R292. -/
  | bitrev (d src : Reg)
  /-- BYTEREV d, s, R293. -/
  | byterev (d src : Reg)
  /-- CLZ d, s, R294. -/
  | clz (d src : Reg)
  -- Branching, jumping and calling (spec/42_branch_call.md)
  /-- BRFT c, u16, R311. -/
  | brft (c : Reg) (u16 : BitVec 16)
  /-- BRFF c, u16, R312. -/
  | brff (c : Reg) (u16 : BitVec 16)
  /-- BRBT c, u16, R313. -/
  | brbt (c : Reg) (u16 : BitVec 16)
  /-- BRBF c, u16, R314. -/
  | brbf (c : Reg) (u16 : BitVec 16)
  /-- BRFU u16, R315. -/
  | brfu (u16 : BitVec 16)
  /-- BRBU u16, R316. -/
  | brbu (u16 : BitVec 16)
  /-- BRU s, R317. -/
  | bru (src : Reg)
  /-- BAU s, R318. -/
  | bau (src : Reg)
  /-- BLRF u20, R319. -/
  | blrf (u20 : BitVec 20)
  /-- BLRB u20, R320. -/
  | blrb (u20 : BitVec 20)
  /-- BLA s, R321. -/
  | bla (src : Reg)
  /-- BLACP u20, R322. -/
  | blacp (u20 : BitVec 20)
  /-- BLAT u16, R323. -/
  | blat (u16 : BitVec 16)
  /-- ENTSP u16, R324. -/
  | entsp (u16 : BitVec 16)
  /-- RETSP u16, R325. -/
  | retsp (u16 : BitVec 16)
  /-- EXTSP u16, R326. -/
  | extsp (u16 : BitVec 16)
  /-- EXTDP u16, R327. -/
  | extdp (u16 : BitVec 16)
  /-- SETSP s, R328. -/
  | setsp (src : Reg)
  /-- SETDP s, R329. -/
  | setdp (src : Reg)
  /-- SETCP s, R330. -/
  | setcp (src : Reg)
  -- Resources and threads (spec/43_resources_threads.md)
  /-- GETR d, us, R355. -/
  | getr (d : Reg) (us : Us)
  /-- FREER r, R356. -/
  | freer (r : Reg)
  /-- SETC r, s, R357. -/
  | setc (r src : Reg)
  /-- SETCI r, u16, R358. -/
  | setci (r : Reg) (u16 : BitVec 16)
  /-- TINITPC s, t, R370. -/
  | tinitpc (src t : Reg)
  /-- TINITSP s, t, R371. -/
  | tinitsp (src t : Reg)
  /-- TINITDP s, t, R372. -/
  | tinitdp (src t : Reg)
  /-- TINITCP s, t, R373. -/
  | tinitcp (src t : Reg)
  /-- TINITLR s, t, R374. -/
  | tinitlr (src t : Reg)
  /-- TSETR d, s, t, R375. -/
  | tsetr (d src t : Reg)
  /-- TSETMR d, s, R376. -/
  | tsetmr (d src : Reg)
  /-- GETST d, r, R377. -/
  | getst (d r : Reg)
  /-- TSTART t, R379. -/
  | tstart (t : Reg)
  /-- SSYNC, R380. -/
  | ssync
  /-- MSYNC r, R381. -/
  | msync (r : Reg)
  /-- MJOIN r, R383. -/
  | mjoin (r : Reg)
  /-- FREET, R384. -/
  | freet
  /-- GETID, R385. -/
  | getid
  -- Channels and locks (spec/44_communication_locks.md)
  /-- SETD r, s, R420. -/
  | setd (r src : Reg)
  /-- GETD d, r, R421. -/
  | getd (d r : Reg)
  /-- SETN r, s, R422. -/
  | setn (r src : Reg)
  /-- GETN d, r, R423. -/
  | getn (d r : Reg)
  /-- OUTT r, s, R424. -/
  | outt (r src : Reg)
  /-- OUTCT r, s, R425. -/
  | outct (r src : Reg)
  /-- OUTCTI r, us, R426. -/
  | outcti (r : Reg) (us : Us)
  /-- INT d, r, R427. -/
  | int (d r : Reg)
  /-- INCT d, r, R428. -/
  | inct (d r : Reg)
  /-- CHKCT r, s, R429. -/
  | chkct (r src : Reg)
  /-- CHKCTI r, us, R430. -/
  | chkcti (r : Reg) (us : Us)
  /-- OUT r, s, R431. -/
  | out (r src : Reg)
  /-- IN d, r, R432. -/
  | in_ (d r : Reg)
  /-- TESTCT d, r, R433. -/
  | testct (d r : Reg)
  /-- TESTWCT d, r, R434. -/
  | testwct (d r : Reg)
  /-- TESTLCL d, r, R435. -/
  | testlcl (d r : Reg)
  -- Timers, clocks and ports (spec/45_timers_clocks_ports.md)
  /-- SETCLK r, s, R461. -/
  | setclk (r src : Reg)
  /-- SETRDY r, s, R464. -/
  | setrdy (r src : Reg)
  /-- OUTSHR r, d, R476. -/
  | outshr (r d : Reg)
  /-- INSHR d, r, R477. -/
  | inshr (d r : Reg)
  /-- PEEK d, r, R478. -/
  | peek (d r : Reg)
  /-- SETPT r, s, R481. -/
  | setpt (r src : Reg)
  /-- CLRPT r, R482. -/
  | clrpt (r : Reg)
  /-- GETTS d, r, R483. -/
  | getts (d r : Reg)
  /-- SETTW r, s, R488. -/
  | settw (r src : Reg)
  /-- SETPSC r, s, R489. -/
  | setpsc (r src : Reg)
  /-- ENDIN d, r, R490. -/
  | endin (d r : Reg)
  /-- OUTPW s, r, bitp, R491. -/
  | outpw (src r : Reg) (bitp : Us)
  /-- INPW d, r, bitp, R492. -/
  | inpw (d r : Reg) (bitp : Us)
  /-- SYNCR r, R493. -/
  | syncr (r : Reg)
  -- Events, interrupts, kernel calls and the status register (spec/46_events_kernel.md)
  /-- GETSR u16, R520. -/
  | getsr (u16 : BitVec 16)
  /-- SETSR u16, R521. -/
  | setsr (u16 : BitVec 16)
  /-- CLRSR u16, R522. -/
  | clrsr (u16 : BitVec 16)
  /-- SETV r, R530. -/
  | setv (r : Reg)
  /-- SETEV r, R531. -/
  | setev (r : Reg)
  /-- EET d, r, R532. -/
  | eet (d r : Reg)
  /-- EEF d, r, R533. -/
  | eef (d r : Reg)
  /-- EEU r, R534. -/
  | eeu (r : Reg)
  /-- EDU r, R535. -/
  | edu (r : Reg)
  /-- CLRE, R536. -/
  | clre
  /-- WAITET c, R537. -/
  | waitet (c : Reg)
  /-- WAITEF c, R538. -/
  | waitef (c : Reg)
  /-- WAITEU, R539. -/
  | waiteu
  /-- ECALLT c, R550. -/
  | ecallt (c : Reg)
  /-- ECALLF c, R551. -/
  | ecallf (c : Reg)
  /-- KCALL s, R552. -/
  | kcall (src : Reg)
  /-- KCALLI u16, R553. -/
  | kcalli (u16 : BitVec 16)
  /-- KRET, R554. -/
  | kret
  /-- LDSPC, R560. -/
  | ldspc
  /-- STSPC, R561. -/
  | stspc
  /-- LDSSR, R562. -/
  | ldssr
  /-- STSSR, R563. -/
  | stssr
  /-- LDSED, R564. -/
  | ldsed
  /-- STSED, R565. -/
  | stsed
  /-- LDET, R566. -/
  | ldet
  /-- STET, R567. -/
  | stet
  /-- GETET, R568. -/
  | getet
  /-- GETED, R569. -/
  | geted
  /-- KENTSP u16, R570. -/
  | kentsp (u16 : BitVec 16)
  /-- KRESTSP u16, R571. -/
  | krestsp (u16 : BitVec 16)
  /-- SETKEP, R575. -/
  | setkep
  /-- GETKEP, R576. -/
  | getkep
  /-- GETKSP, R577. -/
  | getksp
  -- Debugging and processor state (spec/47_debug.md)
  /-- DCALL, R593. -/
  | dcall
  /-- DRET, R594. -/
  | dret
  /-- DENTSP, R595. -/
  | dentsp
  /-- DRESTSP, R596. -/
  | drestsp
  /-- DGETREG s, R597. -/
  | dgetreg (src : Reg)
  /-- GETPS d, r, R598. -/
  | getps (d r : Reg)
  /-- SETPS r, s, R599. -/
  | setps (r src : Reg)
  -- Specialised (spec/48_specialised.md)
  /-- LADD d, e, x, y, v, R621. -/
  | ladd (d e x y v : Reg)
  /-- LSUB d, e, x, y, v, R622. -/
  | lsub (d e x y v : Reg)
  /-- LDIVU d, e, x, y, v, R623. -/
  | ldivu (d e x y v : Reg)
  /-- LMUL d, e, x, y, v, w, R624. -/
  | lmul (d e x y v w : Reg)
  /-- MACCS d, e, x, y, R625. -/
  | maccs (d e x y : Reg)
  /-- MACCU d, e, x, y, R626. -/
  | maccu (d e x y : Reg)
  /-- CRC r, d, p, R627. -/
  | crc (r d p : Reg)
  /-- CRC8 o, r, d, p, R628. -/
  | crc8 (o r d p : Reg)
deriving DecidableEq, Repr

end Sys2Proof
end

