-- ==== Sys2Proof/Decode.lean ====
section
/-! DEFINITION. The decoder (R162 of spec/30_encoding.md), total on any parcels and any bytes, and the encoder, written
from the same encoding tables (R134 to R147). Both go through `Form`: a parcel or a pair of parcels cut into its fields,
before its opcode is looked at. -/
namespace Sys2Proof

/-- Why a parcel, a pair of parcels or a string of bytes is not an instruction (R161). -/
inductive DecodeError where
  /-- Too few bytes are left for the instruction. -/
  | truncated
  /-- A one-parcel form whose opcode no table gives (R161 items 1 to 5). -/
  | illegalShort
  /-- PFIX before a parcel that is not ru6, u6 or u10 (R161 item 6). -/
  | illegalPrefixed
  /-- EOPR whose second parcel matches no row (R161 item 7). -/
  | illegalExtended
  /-- LDIVU, MACCS or MACCU on revision A (R161 item 8, R2). -/
  | absentInRevisionA
deriving DecidableEq, Repr

/-- Bits lo + n - 1 .. lo of a number (R11). -/
def field (w lo n : Nat) : Nat := w / 2 ^ lo % 2 ^ n

/-- A register operand from its number; every number a field gives is below 16. -/
def reg (n : Nat) : Reg := Fin.ofNat 16 n

/-! ## The operand fields of one parcel -/

/-- The three-operand field F3 (R134): bits 10..0. -/
def packF3 (a b c : Nat) : Nat :=
  (a / 4 * 9 + b / 4 * 3 + c / 4) * 64 + a % 4 * 16 + b % 4 * 4 + c % 4

/-- First operand of F3 (R134). -/
def f3a (w : Nat) : Nat := field w 6 5 / 9 * 4 + field w 4 2
/-- Second operand of F3 (R134). -/
def f3b (w : Nat) : Nat := field w 6 5 / 3 % 3 * 4 + field w 2 2
/-- Third operand of F3 (R134). -/
def f3c (w : Nat) : Nat := field w 6 5 % 3 * 4 + field w 0 2

/-- The table that R136 decides on (D18; log 32): 27 + v with bit 5 clear for v up to 4, 22 + v with bit 5 set above. -/
def defaultPairs : PairTable :=
  #v[⟨27, 0⟩, ⟨28, 0⟩, ⟨29, 0⟩, ⟨30, 0⟩, ⟨31, 0⟩, ⟨27, 1⟩, ⟨28, 1⟩, ⟨29, 1⟩, ⟨30, 1⟩]

/-- A table that can be decoded (R136): no two entries agree, each has 27 to 31 in bits 10..6, which no three-operand
field has, and none is the pattern of the 1r and 0r formats, bits 10..5 all 1. -/
def pairsOk (pairs : PairTable) : Bool :=
  decide pairs.toList.Nodup &&
    pairs.toList.all fun c => decide (27 ≤ c.high) && decide (c.high ≤ 31) && decide (c.ext ≤ 1) && c != ⟨31, 1⟩

/-- Entry v of the table (R136); a v above 8, which no instruction has that is well-formed, gives the pattern that is no
two-operand field. -/
def pairCode (pairs : PairTable) (v : Nat) : PairCode := pairs.toList.getD v ⟨31, 1⟩

/-- The v whose entry a code is, or none where the table has no such entry (R136). -/
def pairIndex (pairs : PairTable) (c : PairCode) : Option Nat := pairs.toList.idxOf? c

/-- The two-operand field F2 with its opcode bit 4 (R135, R136): bits 10..0. -/
def packF2 (pairs : PairTable) (bit4 a b : Nat) : Nat :=
  let c := pairCode pairs (a / 4 * 3 + b / 4)
  c.high * 64 + c.ext * 32 + bit4 * 16 + a % 4 * 4 + b % 4

/-- The first and the second operand of F2 (R135, R136), or none where bits 10..5 are no entry of the table. -/
def f2Operands (pairs : PairTable) (w : Nat) : Option (Nat × Nat) :=
  (pairIndex pairs ⟨field w 6 5, field w 5 1⟩).map fun v => (v / 3 * 4 + field w 2 2, v % 3 * 4 + field w 0 2)

/-- Bits 10..6 say that the parcel has a three-operand field (R134). -/
def isF3 (w : Nat) : Bool := field w 6 5 ≤ 26
/-- Bits 10..5 are the pattern of the 1r and 0r formats and of most second parcels (R143, R144). -/
def isOnes (w : Nat) : Bool := field w 5 6 = 0b111111

/-! ## Forms -/

/-- A parcel or a pair of parcels cut into fields. `op` is the opcode field of the format, `bit4` the further opcode
bit, `r` a four-bit register field, `imm` an immediate with its prefix, `sec` an opcode field of a second parcel. -/
inductive Form where
  /-- 3r, 2rus (R138). -/
  | f3 (op a b c : Nat)
  /-- 2r, rus, r2r (R142). -/
  | f2 (op bit4 a b : Nat)
  /-- 1r, 0r (R143). -/
  | f1 (op bit4 r : Nat)
  /-- ru6, u6 and their prefixed forms (R139, R141). -/
  | ru6 (op r imm : Nat)
  /-- u10 and its prefixed form (R140, R141). -/
  | u10 (op imm : Nat)
  /-- l3r, l2rus, l4r (R144, R146): `sec` is bits 15..11 and `low` bits 4..0 of the second parcel. -/
  | l3 (sec low a b c : Nat)
  /-- l2r, lr2r (R145): `bit4` is of the first parcel, `sec` the whole second parcel. -/
  | l2 (bit4 sec a b : Nat)
  /-- l5r (R147). -/
  | l5 (sec bit4 a b c d e : Nat)
  /-- l6r (R147). -/
  | l6 (sec a b c d e f : Nat)
deriving DecidableEq, Repr

/-- Bits 15..10 are the opcode of a ru6 or u6 instruction (R139). -/
def isRu6 (op : Nat) : Bool := (0b010100 ≤ op && op ≤ 0b011111) || op = 0b111010

/-- Bits 15..10 are the opcode of a u10 instruction (R140). -/
def isU10 (op : Nat) : Bool := 0b110100 ≤ op && op ≤ 0b111001

/-- The first parcel announces a second one (R131). -/
def needsSecond (w1 : Nat) : Bool := field w1 10 6 = 0b111100 || field w1 11 5 = 0b11111

/-- An immediate format with the ten bits p of its prefix, or none (R139 to R141). -/
def parseImm (p w : Nat) : Option Form :=
  if isRu6 (field w 10 6) then some (.ru6 (field w 10 6) (field w 6 4) (p * 64 + field w 0 6))
  else if isU10 (field w 10 6) then some (.u10 (field w 10 6) (p * 1024 + field w 0 10))
  else none

/-- A pair of parcels whose first is EOPR (R162). -/
def parseExtended (pairs : PairTable) (w1 w2 : Nat) : Except DecodeError Form :=
  if isF3 w1 then
    if isOnes w2 then .ok (.l3 (field w2 11 5) (field w2 0 5) (f3a w1) (f3b w1) (f3c w1))
    else if isF3 w2 then .ok (.l6 (field w2 11 5) (f3a w1) (f3b w1) (f3c w1) (f3a w2) (f3b w2) (f3c w2))
    else
      match f2Operands pairs w2 with
      | some (d, e) => .ok (.l5 (field w2 11 5) (field w2 4 1) (f3a w1) (f3b w1) (f3c w1) d e)
      | none => .error .illegalExtended
  else if isOnes w1 then .error .illegalExtended
  else
    match f2Operands pairs w1 with
    | some (a, b) => .ok (.l2 (field w1 4 1) w2 a b)
    | none => .error .illegalExtended

/-- One parcel that is neither PFIX nor EOPR (R162). -/
def parseShort (pairs : PairTable) (w : Nat) : Except DecodeError Form :=
  match parseImm 0 w with
  | some f => .ok f
  | none =>
    if isF3 w then .ok (.f3 (field w 11 5) (f3a w) (f3b w) (f3c w))
    else if isOnes w then .ok (.f1 (field w 11 5) (field w 4 1) (field w 0 4))
    else
      match f2Operands pairs w with
      | some (a, b) => .ok (.f2 (field w 11 5) (field w 4 1) a b)
      | none => .error .illegalShort

/-- The first two parcels cut into fields, and the length in bytes (R162). -/
def parse (pairs : PairTable) (w1 w2 : Nat) : Except DecodeError (Form × Nat) :=
  if field w1 10 6 = 0b111100 then
    match parseImm (field w1 0 10) w2 with
    | some f => .ok (f, 4)
    | none => .error .illegalPrefixed
  else if field w1 11 5 = 0b11111 then
    match parseExtended pairs w1 w2 with
    | .ok f => .ok (f, 4)
    | .error e => .error e
  else
    match parseShort pairs w1 with
    | .ok f => .ok (f, 2)
    | .error e => .error e

/-! ## The opcode tables -/

/-- 3r and 2rus (R138). -/
def instr3 (op a b c : Nat) : Option Instr :=
  match op with
  | 0b00000 => some (.stwi (reg a) (reg b) (reg c))
  | 0b00001 => some (.ldwi (reg a) (reg b) (reg c))
  | 0b00010 => some (.add (reg a) (reg b) (reg c))
  | 0b00011 => some (.sub (reg a) (reg b) (reg c))
  | 0b00100 => some (.shl (reg a) (reg b) (reg c))
  | 0b00101 => some (.shr (reg a) (reg b) (reg c))
  | 0b00110 => some (.eq (reg a) (reg b) (reg c))
  | 0b00111 => some (.and (reg a) (reg b) (reg c))
  | 0b01000 => some (.or (reg a) (reg b) (reg c))
  | 0b01001 => some (.ldw (reg a) (reg b) (reg c))
  | 0b10000 => some (.ld16s (reg a) (reg b) (reg c))
  | 0b10001 => some (.ld8u (reg a) (reg b) (reg c))
  | 0b10010 => some (.addi (reg a) (reg b) (reg c))
  | 0b10011 => some (.subi (reg a) (reg b) (reg c))
  | 0b10100 => some (.shli (reg a) (reg b) (reg c))
  | 0b10101 => some (.shri (reg a) (reg b) (reg c))
  | 0b10110 => some (.eqi (reg a) (reg b) (reg c))
  | 0b10111 => some (.tsetr (reg a) (reg b) (reg c))
  | 0b11000 => some (.lss (reg a) (reg b) (reg c))
  | 0b11001 => some (.lsu (reg a) (reg b) (reg c))
  | _ => none

/-- 2r, rus and r2r (R142); in r2r the operand in bits 3..2 is the second. -/
def instr2 (op bit4 a b : Nat) : Option Instr :=
  match op, bit4 with
  | 0b00000, 0b0 => some (.tinitpc (reg a) (reg b))
  | 0b00000, 0b1 => some (.getst (reg a) (reg b))
  | 0b00001, 0b0 => some (.tinitdp (reg a) (reg b))
  | 0b00001, 0b1 => some (.outt (reg b) (reg a))
  | 0b00010, 0b0 => some (.tinitsp (reg a) (reg b))
  | 0b00010, 0b1 => some (.setd (reg b) (reg a))
  | 0b00011, 0b0 => some (.tinitcp (reg a) (reg b))
  | 0b00011, 0b1 => some (.tsetmr (reg a) (reg b))
  | 0b00100, 0b1 => some (.eet (reg a) (reg b))
  | 0b00101, 0b0 => some (.andnot (reg a) (reg b))
  | 0b00101, 0b1 => some (.eef (reg a) (reg b))
  | 0b00110, 0b0 => some (.sext (reg a) (reg b))
  | 0b00110, 0b1 => some (.sexti (reg a) (reg b))
  | 0b00111, 0b0 => some (.getts (reg a) (reg b))
  | 0b00111, 0b1 => some (.setpt (reg b) (reg a))
  | 0b01000, 0b0 => some (.zext (reg a) (reg b))
  | 0b01000, 0b1 => some (.zexti (reg a) (reg b))
  | 0b01001, 0b0 => some (.outct (reg a) (reg b))
  | 0b01001, 0b1 => some (.outcti (reg a) (reg b))
  | 0b10000, 0b0 => some (.getr (reg a) (reg b))
  | 0b10000, 0b1 => some (.inct (reg a) (reg b))
  | 0b10001, 0b0 => some (.not (reg a) (reg b))
  | 0b10001, 0b1 => some (.int (reg a) (reg b))
  | 0b10010, 0b0 => some (.neg (reg a) (reg b))
  | 0b10010, 0b1 => some (.endin (reg a) (reg b))
  | 0b10100, 0b0 => some (.mkmsk (reg a) (reg b))
  | 0b10100, 0b1 => some (.mkmski (reg a) (reg b))
  | 0b10101, 0b0 => some (.out (reg b) (reg a))
  | 0b10101, 0b1 => some (.outshr (reg b) (reg a))
  | 0b10110, 0b0 => some (.in_ (reg a) (reg b))
  | 0b10110, 0b1 => some (.inshr (reg a) (reg b))
  | 0b10111, 0b0 => some (.peek (reg a) (reg b))
  | 0b10111, 0b1 => some (.testct (reg a) (reg b))
  | 0b11000, 0b0 => some (.setpsc (reg b) (reg a))
  | 0b11000, 0b1 => some (.testwct (reg a) (reg b))
  | 0b11001, 0b0 => some (.chkct (reg a) (reg b))
  | 0b11001, 0b1 => some (.chkcti (reg a) (reg b))
  | _, _ => none

/-- 1r (R143). -/
def instr1 (op bit4 r : Nat) : Option Instr :=
  match op, bit4 with
  | 0b00000, 0b0 => some (.edu (reg r))
  | 0b00000, 0b1 => some (.eeu (reg r))
  | 0b00001, 0b0 => some (.waitet (reg r))
  | 0b00001, 0b1 => some (.waitef (reg r))
  | 0b00010, 0b0 => some (.freer (reg r))
  | 0b00010, 0b1 => some (.mjoin (reg r))
  | 0b00011, 0b0 => some (.tstart (reg r))
  | 0b00011, 0b1 => some (.msync (reg r))
  | 0b00100, 0b0 => some (.bla (reg r))
  | 0b00100, 0b1 => some (.bau (reg r))
  | 0b00101, 0b0 => some (.bru (reg r))
  | 0b00101, 0b1 => some (.setsp (reg r))
  | 0b00110, 0b0 => some (.setdp (reg r))
  | 0b00110, 0b1 => some (.setcp (reg r))
  | 0b00111, 0b0 => some (.dgetreg (reg r))
  | 0b00111, 0b1 => some (.setev (reg r))
  | 0b01000, 0b0 => some (.kcall (reg r))
  | 0b01000, 0b1 => some (.setv (reg r))
  | 0b01001, 0b0 => some (.ecallf (reg r))
  | 0b01001, 0b1 => some (.ecallt (reg r))
  | 0b10000, 0b0 => some (.clrpt (reg r))
  | 0b10000, 0b1 => some (.syncr (reg r))
  | _, _ => none

/-- 0r (R143). -/
def instr0 (op bit4 r : Nat) : Option Instr :=
  match op, bit4, r with
  | 0b00000, 0b0, 0b1100 => some .waiteu
  | 0b00000, 0b0, 0b1101 => some .clre
  | 0b00000, 0b0, 0b1110 => some .ssync
  | 0b00000, 0b0, 0b1111 => some .freet
  | 0b00000, 0b1, 0b1100 => some .dcall
  | 0b00000, 0b1, 0b1101 => some .kret
  | 0b00000, 0b1, 0b1110 => some .dret
  | 0b00000, 0b1, 0b1111 => some .setkep
  | 0b00001, 0b0, 0b1100 => some .ldspc
  | 0b00001, 0b0, 0b1101 => some .stspc
  | 0b00001, 0b0, 0b1110 => some .ldssr
  | 0b00001, 0b0, 0b1111 => some .stssr
  | 0b00001, 0b1, 0b1100 => some .stsed
  | 0b00001, 0b1, 0b1101 => some .stet
  | 0b00001, 0b1, 0b1110 => some .geted
  | 0b00001, 0b1, 0b1111 => some .getet
  | 0b00010, 0b0, 0b1100 => some .dentsp
  | 0b00010, 0b0, 0b1101 => some .drestsp
  | 0b00010, 0b0, 0b1110 => some .getid
  | 0b00010, 0b0, 0b1111 => some .getkep
  | 0b00010, 0b1, 0b1100 => some .getksp
  | 0b00010, 0b1, 0b1101 => some .ldsed
  | 0b00010, 0b1, 0b1110 => some .ldet
  | _, _, _ => none

/-- u6: the ru6 branch opcodes with register field 12..15 (R139). -/
def instrU6 (op r i : Nat) : Option Instr :=
  match op, r with
  | 0b011100, 0b1100 => some (.brfu (.ofNat 16 i))
  | 0b011100, 0b1101 => some (.blat (.ofNat 16 i))
  | 0b011100, 0b1110 => some (.extdp (.ofNat 16 i))
  | 0b011100, 0b1111 => some (.kcalli (.ofNat 16 i))
  | 0b011101, 0b1100 => some (.brbu (.ofNat 16 i))
  | 0b011101, 0b1101 => some (.entsp (.ofNat 16 i))
  | 0b011101, 0b1110 => some (.extsp (.ofNat 16 i))
  | 0b011101, 0b1111 => some (.retsp (.ofNat 16 i))
  | 0b011110, 0b1100 => some (.clrsr (.ofNat 16 i))
  | 0b011110, 0b1101 => some (.setsr (.ofNat 16 i))
  | 0b011110, 0b1110 => some (.kentsp (.ofNat 16 i))
  | 0b011110, 0b1111 => some (.krestsp (.ofNat 16 i))
  | 0b011111, 0b1100 => some (.getsr (.ofNat 16 i))
  | 0b011111, 0b1101 => some (.ldawcp (.ofNat 16 i))
  | _, _ => none

/-- ru6 with one of r0..r11 (R139), SETCI and the branches among them. -/
def instrRu6 (op r i : Nat) : Option Instr :=
  match op with
  | 0b010100 => some (.stwdp (reg r) (.ofNat 16 i))
  | 0b010101 => some (.stwsp (reg r) (.ofNat 16 i))
  | 0b010110 => some (.ldwdp (reg r) (.ofNat 16 i))
  | 0b010111 => some (.ldwsp (reg r) (.ofNat 16 i))
  | 0b011000 => some (.ldawdp (reg r) (.ofNat 16 i))
  | 0b011001 => some (.ldawsp (reg r) (.ofNat 16 i))
  | 0b011010 => some (.ldc (reg r) (.ofNat 16 i))
  | 0b011011 => some (.ldwcp (reg r) (.ofNat 16 i))
  | 0b011100 => some (.brft (reg r) (.ofNat 16 i))
  | 0b011101 => some (.brbt (reg r) (.ofNat 16 i))
  | 0b011110 => some (.brff (reg r) (.ofNat 16 i))
  | 0b011111 => some (.brbf (reg r) (.ofNat 16 i))
  | 0b111010 => some (.setci (reg r) (.ofNat 16 i))
  | _ => none

/-- ru6 with a capital-letter operand, for a register field above 11 (R137). -/
def instrRu6Cap (op r i : Nat) : Option Instr :=
  match op with
  | 0b010100 => some (.stwdp (reg r) (.ofNat 16 i))
  | 0b010101 => some (.stwsp (reg r) (.ofNat 16 i))
  | 0b010110 => some (.ldwdp (reg r) (.ofNat 16 i))
  | 0b010111 => some (.ldwsp (reg r) (.ofNat 16 i))
  | 0b011000 => some (.ldawdp (reg r) (.ofNat 16 i))
  | 0b011001 => some (.ldawsp (reg r) (.ofNat 16 i))
  | 0b011010 => some (.ldc (reg r) (.ofNat 16 i))
  | 0b011011 => some (.ldwcp (reg r) (.ofNat 16 i))
  | _ => none

/-- u10 (R140). -/
def instrU10 (op i : Nat) : Option Instr :=
  match op with
  | 0b110100 => some (.blrf (.ofNat 20 i))
  | 0b110101 => some (.blrb (.ofNat 20 i))
  | 0b110110 => some (.ldapf (.ofNat 20 i))
  | 0b110111 => some (.ldapb (.ofNat 20 i))
  | 0b111000 => some (.blacp (.ofNat 20 i))
  | 0b111001 => some (.ldwcpl (.ofNat 20 i))
  | _ => none

/-- l3r and l2rus (R144). -/
def instrL3 (sec low a b c : Nat) : Option Instr :=
  match sec, low with
  | 0b00000, 0b01100 => some (.stw (reg a) (reg b) (reg c))
  | 0b00001, 0b01100 => some (.xor (reg a) (reg b) (reg c))
  | 0b00010, 0b01100 => some (.ashr (reg a) (reg b) (reg c))
  | 0b00011, 0b01100 => some (.ldawf (reg a) (reg b) (reg c))
  | 0b00100, 0b01100 => some (.ldawb (reg a) (reg b) (reg c))
  | 0b00101, 0b01100 => some (.lda16f (reg a) (reg b) (reg c))
  | 0b00110, 0b01100 => some (.lda16b (reg a) (reg b) (reg c))
  | 0b00111, 0b01100 => some (.mul (reg a) (reg b) (reg c))
  | 0b01000, 0b01100 => some (.divs (reg a) (reg b) (reg c))
  | 0b01001, 0b01100 => some (.divu (reg a) (reg b) (reg c))
  | 0b10000, 0b01100 => some (.st16 (reg a) (reg b) (reg c))
  | 0b10001, 0b01100 => some (.st8 (reg a) (reg b) (reg c))
  | 0b10010, 0b01100 => some (.ashri (reg a) (reg b) (reg c))
  | 0b10010, 0b01101 => some (.outpw (reg a) (reg b) (reg c))
  | 0b10010, 0b01110 => some (.inpw (reg a) (reg b) (reg c))
  | 0b10011, 0b01100 => some (.ldawfi (reg a) (reg b) (reg c))
  | 0b10100, 0b01100 => some (.ldawbi (reg a) (reg b) (reg c))
  | 0b10101, 0b01100 => some (.crc (reg a) (reg b) (reg c))
  | 0b11000, 0b01100 => some (.rems (reg a) (reg b) (reg c))
  | 0b11001, 0b01100 => some (.remu (reg a) (reg b) (reg c))
  | _, _ => none

/-- l4r (R146): the fourth operand is in bits 3..0 of the second parcel. -/
def instrL4 (sec bit4 a b c d : Nat) : Option Instr :=
  match sec, bit4 with
  | 0b00000, 0b0 => some (.crc8 (reg a) (reg d) (reg b) (reg c))
  | 0b00000, 0b1 => some (.maccu (reg a) (reg d) (reg b) (reg c))
  | 0b00001, 0b0 => some (.maccs (reg a) (reg d) (reg b) (reg c))
  | _, _ => none

/-- l2r and lr2r (R145); in lr2r the operand in bits 3..2 is the second. -/
def instrL2 (bit4 sec a b : Nat) : Option Instr :=
  match bit4, sec with
  | 0b0, 0x07EC => some (.bitrev (reg a) (reg b))
  | 0b0, 0x0FEC => some (.clz (reg a) (reg b))
  | 0b0, 0x17EC => some (.tinitlr (reg a) (reg b))
  | 0b0, 0x1FEC => some (.setps (reg b) (reg a))
  | 0b0, 0x27EC => some (.testlcl (reg a) (reg b))
  | 0b0, 0x2FEC => some (.setrdy (reg b) (reg a))
  | 0b0, 0x37EC => some (.setn (reg b) (reg a))
  | 0b1, 0x07EC => some (.byterev (reg a) (reg b))
  | 0b1, 0x0FEC => some (.setclk (reg b) (reg a))
  | 0b1, 0x17EC => some (.getps (reg a) (reg b))
  | 0b1, 0x1FEC => some (.getd (reg a) (reg b))
  | 0b1, 0x27EC => some (.settw (reg b) (reg a))
  | 0b1, 0x2FEC => some (.setc (reg a) (reg b))
  | 0b1, 0x37EC => some (.getn (reg a) (reg b))
  | _, _ => none

/-- l5r (R147). -/
def instrL5 (sec bit4 a b c d e : Nat) : Option Instr :=
  match sec, bit4 with
  | 0b00000, 0b0 => some (.ldivu (reg a) (reg d) (reg b) (reg c) (reg e))
  | 0b00000, 0b1 => some (.ladd (reg a) (reg d) (reg b) (reg c) (reg e))
  | 0b00001, 0b0 => some (.lsub (reg a) (reg d) (reg b) (reg c) (reg e))
  | _, _ => none

/-- l6r (R147). -/
def instrL6 (sec a b c d e f : Nat) : Option Instr :=
  match sec with
  | 0b00000 => some (.lmul (reg a) (reg d) (reg b) (reg c) (reg e) (reg f))
  | _ => none

/-- The instruction a form stands for (R138 to R147). -/
def instrOf : Form → Except DecodeError Instr
  | .f3 op a b c => (instr3 op a b c).elim (.error .illegalShort) .ok
  | .f2 op bit4 a b => (instr2 op bit4 a b).elim (.error .illegalShort) .ok
  | .f1 op bit4 r => (if r < 12 then instr1 op bit4 r else instr0 op bit4 r).elim (.error .illegalShort) .ok
  | .ru6 op r i =>
    (if r < 12 then instrRu6 op r i else (instrRu6Cap op r i).or (instrU6 op r i)).elim (.error .illegalShort) .ok
  | .u10 op i => (instrU10 op i).elim (.error .illegalShort) .ok
  | .l3 sec low a b c =>
    (if low % 16 < 12 then instrL4 sec (low / 16) a b c (low % 16) else instrL3 sec low a b c).elim
      (.error .illegalExtended) .ok
  | .l2 bit4 sec a b => (instrL2 bit4 sec a b).elim (.error .illegalExtended) .ok
  | .l5 sec bit4 a b c d e => (instrL5 sec bit4 a b c d e).elim (.error .illegalExtended) .ok
  | .l6 sec a b c d e f => (instrL6 sec a b c d e f).elim (.error .illegalExtended) .ok

/-- The instruction exists on the revision (R2, R161 item 8). -/
def inRevision (rev : Revision) : Instr → Bool
  | .ldivu _ _ _ _ _ => rev = .b
  | .maccs _ _ _ _ => rev = .b
  | .maccu _ _ _ _ => rev = .b
  | _ => true

/-- The decoder (R162): the instruction at the parcels w1 and w2, and its length in bytes; w2 counts only where w1
announces a second parcel. -/
def decode (rev : Revision) (pairs : PairTable) (w1 w2 : Parcel) : Except DecodeError (Instr × Nat) :=
  match parse pairs w1.toNat w2.toNat with
  | .error e => .error e
  | .ok (f, len) =>
    match instrOf f with
    | .error e => .error e
    | .ok i => if inRevision rev i then .ok (i, len) else .error .absentInRevisionA

/-- The parcel of two bytes, the first at the lower address (R96). -/
def parcelOf (b0 b1 : Byte) : Parcel := BitVec.ofNat 16 (b0.toNat + b1.toNat * 256)

/-- The decoder on bytes: the instruction they begin with, and the bytes after it. -/
def decodeBytes (rev : Revision) (pairs : PairTable) : List Byte → Except DecodeError (Instr × List Byte)
  | b0 :: b1 :: rest =>
    if needsSecond (parcelOf b0 b1).toNat then
      match rest with
      | b2 :: b3 :: rest' =>
        match decode rev pairs (parcelOf b0 b1) (parcelOf b2 b3) with
        | .ok (i, _) => .ok (i, rest')
        | .error e => .error e
      | _ => .error .truncated
    else
      match decode rev pairs (parcelOf b0 b1) 0#16 with
      | .ok (i, _) => .ok (i, rest)
      | .error e => .error e
  | _ => .error .truncated

/-! ## The encoder -/

/-- A parcel with an opcode in bits 15..11. -/
def packOp (op low : Nat) : Nat := op * 2048 + low

/-- The first parcel of an extended instruction (R132). -/
def packEopr (low : Nat) : Nat := packOp 0b11111 low

/-- A parcel of an immediate format, after a PFIX where the immediate does not fit (R141, R164); `n` is the number of
immediate bits of the parcel. -/
def packImm (op low imm n : Nat) : List Nat :=
  if imm < 2 ^ n then [op * 1024 + low + imm]
  else [0b111100 * 1024 + imm / 2 ^ n, op * 1024 + low + imm % 2 ^ n]

/-- The parcels of a form. -/
def Form.pack (pairs : PairTable) : Form → List Nat
  | .f3 op a b c => [packOp op (packF3 a b c)]
  | .f2 op bit4 a b => [packOp op (packF2 pairs bit4 a b)]
  | .f1 op bit4 r => [packOp op (0b111111 * 32 + bit4 * 16 + r)]
  | .ru6 op r imm => packImm op (r * 64) imm 6
  | .u10 op imm => packImm op 0 imm 10
  | .l3 sec low a b c => [packEopr (packF3 a b c), packOp sec (0b111111 * 32 + low)]
  | .l2 bit4 sec a b => [packEopr (packF2 pairs bit4 a b), sec]
  | .l5 sec bit4 a b c d e => [packEopr (packF3 a b c), packOp sec (packF2 pairs bit4 d e)]
  | .l6 sec a b c d e f => [packEopr (packF3 a b c), packOp sec (packF3 d e f)]

/-- The fields of an instruction (R138 to R147). -/
def formOf : Instr → Form
  | .ldwsp d u16 => .ru6 0b010111 d.val u16.toNat
  | .stwsp src u16 => .ru6 0b010101 src.val u16.toNat
  | .ldawsp d u16 => .ru6 0b011001 d.val u16.toNat
  | .ldwdp d u16 => .ru6 0b010110 d.val u16.toNat
  | .stwdp src u16 => .ru6 0b010100 src.val u16.toNat
  | .ldawdp d u16 => .ru6 0b011000 d.val u16.toNat
  | .ldc d u16 => .ru6 0b011010 d.val u16.toNat
  | .ldwcp d u16 => .ru6 0b011011 d.val u16.toNat
  | .ldawcp u16 => .ru6 0b011111 0b1101 u16.toNat
  | .ldwcpl u20 => .u10 0b111001 u20.toNat
  | .ldapf u20 => .u10 0b110110 u20.toNat
  | .ldapb u20 => .u10 0b110111 u20.toNat
  | .ldwi d b us => .f3 0b00001 d.val b.val us.val
  | .stwi src b us => .f3 0b00000 src.val b.val us.val
  | .ldawfi d b us => .l3 0b10011 0b01100 d.val b.val us.val
  | .ldawbi d b us => .l3 0b10100 0b01100 d.val b.val us.val
  | .ldw d b i => .f3 0b01001 d.val b.val i.val
  | .stw src b i => .l3 0b00000 0b01100 src.val b.val i.val
  | .ldawf d b i => .l3 0b00011 0b01100 d.val b.val i.val
  | .ldawb d b i => .l3 0b00100 0b01100 d.val b.val i.val
  | .ld16s d b i => .f3 0b10000 d.val b.val i.val
  | .st16 src b i => .l3 0b10000 0b01100 src.val b.val i.val
  | .lda16f d b i => .l3 0b00101 0b01100 d.val b.val i.val
  | .lda16b d b i => .l3 0b00110 0b01100 d.val b.val i.val
  | .ld8u d b i => .f3 0b10001 d.val b.val i.val
  | .st8 src b i => .l3 0b10001 0b01100 src.val b.val i.val
  | .add d x y => .f3 0b00010 d.val x.val y.val
  | .addi d x us => .f3 0b10010 d.val x.val us.val
  | .sub d x y => .f3 0b00011 d.val x.val y.val
  | .subi d x us => .f3 0b10011 d.val x.val us.val
  | .neg d src => .f2 0b10010 0 d.val src.val
  | .eq c x y => .f3 0b00110 c.val x.val y.val
  | .eqi c x us => .f3 0b10110 c.val x.val us.val
  | .lss c x y => .f3 0b11000 c.val x.val y.val
  | .lsu c x y => .f3 0b11001 c.val x.val y.val
  | .and d x y => .f3 0b00111 d.val x.val y.val
  | .or d x y => .f3 0b01000 d.val x.val y.val
  | .xor d x y => .l3 0b00001 0b01100 d.val x.val y.val
  | .not d src => .f2 0b10001 0 d.val src.val
  | .andnot d src => .f2 0b00101 0 d.val src.val
  | .shl d x y => .f3 0b00100 d.val x.val y.val
  | .shli d x bitp => .f3 0b10100 d.val x.val bitp.val
  | .shr d x y => .f3 0b00101 d.val x.val y.val
  | .shri d x bitp => .f3 0b10101 d.val x.val bitp.val
  | .ashr d x y => .l3 0b00010 0b01100 d.val x.val y.val
  | .ashri d x bitp => .l3 0b10010 0b01100 d.val x.val bitp.val
  | .mul d x y => .l3 0b00111 0b01100 d.val x.val y.val
  | .divs d x y => .l3 0b01000 0b01100 d.val x.val y.val
  | .divu d x y => .l3 0b01001 0b01100 d.val x.val y.val
  | .rems d x y => .l3 0b11000 0b01100 d.val x.val y.val
  | .remu d x y => .l3 0b11001 0b01100 d.val x.val y.val
  | .mkmsk d src => .f2 0b10100 0 d.val src.val
  | .mkmski d bitp => .f2 0b10100 1 d.val bitp.val
  | .sext d src => .f2 0b00110 0 d.val src.val
  | .sexti d bitp => .f2 0b00110 1 d.val bitp.val
  | .zext d src => .f2 0b01000 0 d.val src.val
  | .zexti d bitp => .f2 0b01000 1 d.val bitp.val
  | .bitrev d src => .l2 0 0x07EC d.val src.val
  | .byterev d src => .l2 1 0x07EC d.val src.val
  | .clz d src => .l2 0 0x0FEC d.val src.val
  | .brft c u16 => .ru6 0b011100 c.val u16.toNat
  | .brff c u16 => .ru6 0b011110 c.val u16.toNat
  | .brbt c u16 => .ru6 0b011101 c.val u16.toNat
  | .brbf c u16 => .ru6 0b011111 c.val u16.toNat
  | .brfu u16 => .ru6 0b011100 0b1100 u16.toNat
  | .brbu u16 => .ru6 0b011101 0b1100 u16.toNat
  | .bru src => .f1 0b00101 0 src.val
  | .bau src => .f1 0b00100 1 src.val
  | .blrf u20 => .u10 0b110100 u20.toNat
  | .blrb u20 => .u10 0b110101 u20.toNat
  | .bla src => .f1 0b00100 0 src.val
  | .blacp u20 => .u10 0b111000 u20.toNat
  | .blat u16 => .ru6 0b011100 0b1101 u16.toNat
  | .entsp u16 => .ru6 0b011101 0b1101 u16.toNat
  | .retsp u16 => .ru6 0b011101 0b1111 u16.toNat
  | .extsp u16 => .ru6 0b011101 0b1110 u16.toNat
  | .extdp u16 => .ru6 0b011100 0b1110 u16.toNat
  | .setsp src => .f1 0b00101 1 src.val
  | .setdp src => .f1 0b00110 0 src.val
  | .setcp src => .f1 0b00110 1 src.val
  | .getr d us => .f2 0b10000 0 d.val us.val
  | .freer r => .f1 0b00010 0 r.val
  | .setc r src => .l2 1 0x2FEC r.val src.val
  | .setci r u16 => .ru6 0b111010 r.val u16.toNat
  | .tinitpc src t => .f2 0b00000 0 src.val t.val
  | .tinitsp src t => .f2 0b00010 0 src.val t.val
  | .tinitdp src t => .f2 0b00001 0 src.val t.val
  | .tinitcp src t => .f2 0b00011 0 src.val t.val
  | .tinitlr src t => .l2 0 0x17EC src.val t.val
  | .tsetr d src t => .f3 0b10111 d.val src.val t.val
  | .tsetmr d src => .f2 0b00011 1 d.val src.val
  | .getst d r => .f2 0b00000 1 d.val r.val
  | .tstart t => .f1 0b00011 0 t.val
  | .ssync => .f1 0b00000 0 0b1110
  | .msync r => .f1 0b00011 1 r.val
  | .mjoin r => .f1 0b00010 1 r.val
  | .freet => .f1 0b00000 0 0b1111
  | .getid => .f1 0b00010 0 0b1110
  | .setd r src => .f2 0b00010 1 src.val r.val
  | .getd d r => .l2 1 0x1FEC d.val r.val
  | .setn r src => .l2 0 0x37EC src.val r.val
  | .getn d r => .l2 1 0x37EC d.val r.val
  | .outt r src => .f2 0b00001 1 src.val r.val
  | .outct r src => .f2 0b01001 0 r.val src.val
  | .outcti r us => .f2 0b01001 1 r.val us.val
  | .int d r => .f2 0b10001 1 d.val r.val
  | .inct d r => .f2 0b10000 1 d.val r.val
  | .chkct r src => .f2 0b11001 0 r.val src.val
  | .chkcti r us => .f2 0b11001 1 r.val us.val
  | .out r src => .f2 0b10101 0 src.val r.val
  | .in_ d r => .f2 0b10110 0 d.val r.val
  | .testct d r => .f2 0b10111 1 d.val r.val
  | .testwct d r => .f2 0b11000 1 d.val r.val
  | .testlcl d r => .l2 0 0x27EC d.val r.val
  | .setclk r src => .l2 1 0x0FEC src.val r.val
  | .setrdy r src => .l2 0 0x2FEC src.val r.val
  | .outshr r d => .f2 0b10101 1 d.val r.val
  | .inshr d r => .f2 0b10110 1 d.val r.val
  | .peek d r => .f2 0b10111 0 d.val r.val
  | .setpt r src => .f2 0b00111 1 src.val r.val
  | .clrpt r => .f1 0b10000 0 r.val
  | .getts d r => .f2 0b00111 0 d.val r.val
  | .settw r src => .l2 1 0x27EC src.val r.val
  | .setpsc r src => .f2 0b11000 0 src.val r.val
  | .endin d r => .f2 0b10010 1 d.val r.val
  | .outpw src r bitp => .l3 0b10010 0b01101 src.val r.val bitp.val
  | .inpw d r bitp => .l3 0b10010 0b01110 d.val r.val bitp.val
  | .syncr r => .f1 0b10000 1 r.val
  | .getsr u16 => .ru6 0b011111 0b1100 u16.toNat
  | .setsr u16 => .ru6 0b011110 0b1101 u16.toNat
  | .clrsr u16 => .ru6 0b011110 0b1100 u16.toNat
  | .setv r => .f1 0b01000 1 r.val
  | .setev r => .f1 0b00111 1 r.val
  | .eet d r => .f2 0b00100 1 d.val r.val
  | .eef d r => .f2 0b00101 1 d.val r.val
  | .eeu r => .f1 0b00000 1 r.val
  | .edu r => .f1 0b00000 0 r.val
  | .clre => .f1 0b00000 0 0b1101
  | .waitet c => .f1 0b00001 0 c.val
  | .waitef c => .f1 0b00001 1 c.val
  | .waiteu => .f1 0b00000 0 0b1100
  | .ecallt c => .f1 0b01001 1 c.val
  | .ecallf c => .f1 0b01001 0 c.val
  | .kcall src => .f1 0b01000 0 src.val
  | .kcalli u16 => .ru6 0b011100 0b1111 u16.toNat
  | .kret => .f1 0b00000 1 0b1101
  | .ldspc => .f1 0b00001 0 0b1100
  | .stspc => .f1 0b00001 0 0b1101
  | .ldssr => .f1 0b00001 0 0b1110
  | .stssr => .f1 0b00001 0 0b1111
  | .ldsed => .f1 0b00010 1 0b1101
  | .stsed => .f1 0b00001 1 0b1100
  | .ldet => .f1 0b00010 1 0b1110
  | .stet => .f1 0b00001 1 0b1101
  | .getet => .f1 0b00001 1 0b1111
  | .geted => .f1 0b00001 1 0b1110
  | .kentsp u16 => .ru6 0b011110 0b1110 u16.toNat
  | .krestsp u16 => .ru6 0b011110 0b1111 u16.toNat
  | .setkep => .f1 0b00000 1 0b1111
  | .getkep => .f1 0b00010 0 0b1111
  | .getksp => .f1 0b00010 1 0b1100
  | .dcall => .f1 0b00000 1 0b1100
  | .dret => .f1 0b00000 1 0b1110
  | .dentsp => .f1 0b00010 0 0b1100
  | .drestsp => .f1 0b00010 0 0b1101
  | .dgetreg src => .f1 0b00111 0 src.val
  | .getps d r => .l2 1 0x17EC d.val r.val
  | .setps r src => .l2 0 0x1FEC src.val r.val
  | .ladd d e x y v => .l5 0b00000 1 d.val x.val y.val e.val v.val
  | .lsub d e x y v => .l5 0b00001 0 d.val x.val y.val e.val v.val
  | .ldivu d e x y v => .l5 0b00000 0 d.val x.val y.val e.val v.val
  | .lmul d e x y v w => .l6 0b00000 d.val x.val y.val e.val v.val w.val
  | .maccs d e x y => .l3 0b00001 e.val d.val x.val y.val
  | .maccu d e x y => .l3 0b00000 (0b10000 + e.val) d.val x.val y.val
  | .crc r d p => .l3 0b10101 0b01100 r.val d.val p.val
  | .crc8 o r d p => .l3 0b00000 r.val o.val d.val p.val

/-- The parcels of an instruction, the one at the lower address first: the short form of an immediate where it fits
(R164). -/
def encode (pairs : PairTable) (i : Instr) : List Parcel := ((formOf i).pack pairs).map (BitVec.ofNat 16)

/-! ## The opcode table's numbering -/

/-- The two parcels of an instruction whose bits the opcode table numbers as w (R166; log 17). A one-parcel row has the
parcel in bits 15..0 and what follows it above. A two-parcel row is written (w1 << 16) | w2, so its first parcel is the
high half; where only the low half can be a first parcel of a long instruction, the low half is taken as the first. -/
def tableParcels (nbits w : Nat) : Parcel × Parcel :=
  if nbits ≤ 16 || !needsSecond (w / 65536 % 65536) then (BitVec.ofNat 16 w, BitVec.ofNat 16 (w / 65536))
  else (BitVec.ofNat 16 (w / 65536), BitVec.ofNat 16 w)

/-- The four bytes of two parcels in memory order (R96). -/
def parcelBytes (p : Parcel × Parcel) : List Byte :=
  [p.1.extractLsb' 0 8, p.1.extractLsb' 8 8, p.2.extractLsb' 0 8, p.2.extractLsb' 8 8]

/-- What the decoder reads from an instruction whose bits the opcode table numbers as w, by the table of R136. -/
def decodeTableWord (nbits w : Nat) : Option Instr :=
  match decodeBytes .b defaultPairs (parcelBytes (tableParcels nbits w)) with
  | .ok (i, _) => some i
  | .error _ => none

end Sys2Proof
end

