-- ==== Sys2Proof/Machine/Platform.lean ====
section
/-! DEFINITION. The platform State.reset starts from: the defaults R10 (spec/00_scope.md) suggests, and the values
the model names where R10 says "platform" (log 1, 2, 3, 5, 9, 10), with the table of R136 (log 32). -/
namespace Sys2Proof.Machine

/-- The port modes after INUSE_ON: the first mode of each group (R71, D15; log 9). -/
def defaultPortModes : PortModes where
  rdymode := .noReady
  bufmode := .synchronised
  msmode := .slave
  sdelay := .noSDelay
  porttype := .dataPort
  drive := .drive
  invert := .noInvert

/-- The processor-state registers of the platform, with the numbers of the family (PRESUMED, log 10). -/
def defaultPsRegs : List PsReg :=
  [⟨0x00, .rambase, false⟩, ⟨0x01, .cell, false⟩, ⟨0x02, .cell, false⟩, ⟨0x03, .cell, true⟩,
   ⟨0x10, .dssr, false⟩, ⟨0x11, .dspc, false⟩, ⟨0x12, .dssp, false⟩, ⟨0x13, .dtid, false⟩,
   ⟨0x14, .dtreg, false⟩, ⟨0x15, .dtype, false⟩, ⟨0x16, .cell, false⟩, ⟨0x17, .dbgint, false⟩]

/-- The parameters of R10 at their suggested values, or the model's. -/
def defaultPlatform : Platform where
  revision := .b
  ramBase := 0x00010000
  ramSize := 0x00010000
  romBase := 0xFFFFC000
  romSize := 0x00002000
  debugEntry := 0xFFFFC000#32
  ramEndSp := 0x0001FFFC#32
  bootPc := 0x00010000#32
  kspBoot := 0x0001FFC0#32
  refHz := 100000000
  refClkId := 0x00000006#32
  dtypeDcall := 2#32
  psRegs := defaultPsRegs
  chanBuf := 8
  flightCap := 8
  nodeId := 0#8
  coreId := 0#8
  privTrap := some .illegalResource
  portDefaults := defaultPortModes
  portCond := .uncond
  portIemode := .event
  pairs := defaultPairs
  offNeedsInuse := false
  valueFirst := false

/-- The value kep holds at reset (log 7): the spec gives none and forbids a model to take 0 (R724). -/
def resetKep : Word := 0x00010080#32

/-- The identifiers of the platform's ports: width in bits 31..16, number in bits 15..8, type 0 (R46, R70); the
family's list (PRESUMED, log 2). -/
def defaultPortIds : List Word :=
  (List.range 16).map (fun n => word (0x00010000 + n * 0x100)) ++
  (List.range 6).map (fun n => word (0x00040000 + n * 0x100)) ++
  (List.range 4).map (fun n => word (0x00080000 + n * 0x100)) ++
  (List.range 2).map (fun n => word (0x00100000 + n * 0x100)) ++
  (List.range 2).map (fun n => word (0x00200000 + n * 0x100))

/-- The width of the port an identifier names (R46, R70). -/
def idWidth (id : Word) : Nat := id.toNat / 65536

end Sys2Proof.Machine
end

