-- ==== Sys2Proof/Machine/State.lean ====
section
/-! DEFINITION. The state of one XCore (spec/10_state.md): every piece of architectural state the spec names, the
platform parameters, and the model's own fields (the agenda of moves, the fixed schedule, the free-value counter);
the faults, the refusals and the state after reset (R731). INVENTORY.md lists each field with its rule. -/
namespace Sys2Proof.Machine

/-- The status register (R35): the fields at bits 0 to 7 in this order; bits 31..8 read as zero and ignore
writes, so they hold nothing. -/
structure SR where
  eeble : Bool
  ieble : Bool
  inenb : Bool
  inint : Bool
  ink : Bool
  sink : Bool
  waiting : Bool
  fast : Bool
deriving DecidableEq, Repr

/-- One hardware thread: its registers (R31 to R38), its allocation bit (R56) and the synchroniser whose slave it
is (R58). `regs` is numbered as R33: 0..11 operand registers, 12 cp, 13 dp, 14 sp, 15 lr. `evwait` is the model's own:
while sr[waiting] is 1, whether the thread waits for an event, which nothing but an entry ends (R540; log 44). -/
structure Thread where
  inuse : Bool
  regs : Vector Word 16
  pc : Word
  sr : SR
  spc : Word
  ssr : Word
  et : Word
  ed : Word
  sed : Word
  kep : Word
  ksp : Word
  syn : Option Nat
  evwait : Bool
deriving DecidableEq, Repr

/-- A token (R401): its kind and its value. -/
structure Token where
  control : Bool
  value : Byte
deriving DecidableEq, Repr

/-- The event state that ports, timers and channel ends share (R49 to R52). -/
structure EventState where
  thread : Nat
  v : Word
  ev : Word
  enb : Bool
  iemode : IeMode
deriving DecidableEq, Repr

/-- A timer (R64). -/
structure Timer where
  inuse : Bool
  cond : Cond
  data : Word
  es : EventState
  waiter : Option Nat
deriving DecidableEq, Repr

/-- Who holds the route into a channel end (R405, R408). -/
inductive Owner where
  | chan (n : Nat)
  | env
deriving DecidableEq, Repr

/-- A channel end (R65, R66, R404, R405). -/
structure Chanend where
  inuse : Bool
  dest : Word
  destset : Bool
  net : Word
  es : EventState
  inbuf : List Token
  route : Bool
  inmsg : Bool
  waiterIn : Option Nat
  waiterOut : Option Nat
  flight : List (Word × Token)
  routedest : Word
  owner : Option Owner
deriving DecidableEq, Repr

/-- A synchroniser (R58). -/
structure Sync where
  inuse : Bool
  mstr : Nat
  slaves : List Nat
  msyn : Bool
  mjoin : Bool
deriving DecidableEq, Repr

/-- A lock (R67). -/
structure Lock where
  inuse : Bool
  held : Bool
  owner : Option Nat
  queue : List Nat
deriving DecidableEq, Repr

/-- A clock block (R68). `level` is the level of its output, `srcLevel` the level of its source when last seen,
`count` the falling edges of the source its divider has counted (R459; log 18). -/
structure ClockBlock where
  inuse : Bool
  source : Word
  div : BitVec 8
  running : Bool
  rdysrc : Option Word
  level : Bool
  srcLevel : Bool
  count : Nat
deriving DecidableEq, Repr

/-- The direction of a port (R72). -/
inductive Direction where
  | input
  | output
deriving DecidableEq, Repr

/-- A port (R70 to R74). `ext` is the value the environment puts on the pins, `outval` the value the port puts
there while `driving` (R469). `held`, `inputting` and `pw` are the model's own (log 20, log 22). -/
structure Port where
  id : Word
  inuse : Bool
  modes : PortModes
  cond : Cond
  data : Word
  es : EventState
  running : Bool
  waiter : Option Nat
  transfer : Word
  trfull : Bool
  trwidth : Nat
  shift : Word
  sfill : Nat
  shiftcount : Nat
  direction : Direction
  ext : Word
  outval : Word
  driving : Bool
  porttimer : BitVec 16
  timestamp : BitVec 16
  porttime : BitVec 16
  porttimeset : Bool
  clk : Word
  rdyport : Option Word
  rdyout : Bool
  held : Bool
  inputting : Bool
  pw : Option Nat
deriving DecidableEq, Repr

/-- The debug and processor-state registers (R79, R81 to R84), and a pending external debug request with its cause
(R592). `dbgintHi` is the rest of the register dbgint, whose bit 0 is indbg; `cells` holds the registers the spec
does not name, an unlisted one reading 0 (log 10). -/
structure Debug where
  dspc : Word
  dssr : Word
  dssp : Word
  dtype : Word
  dtid : Word
  dtreg : Word
  indbg : Bool
  dbgintHi : BitVec 31
  rambase : Word
  cells : List (Nat × Word)
  request : Option Word
deriving DecidableEq, Repr

/-- A resource that can cause an event or an interrupt (R685). -/
inductive ResRef where
  | timer (n : Nat)
  | chan (n : Nat)
  | port (n : Nat)
deriving DecidableEq, Repr

/-- One move of one agent (INVENTORY.md, Agents): which agent acts next, with every choice the spec leaves open. A
move that is not open changes nothing but the agenda (log 14). -/
inductive Move where
  /-- The thread issues the instruction at its pc (R651 c). -/
  | issue (t : Nat)
  /-- The thread takes the event of a resource (R651 b). -/
  | event (t : Nat) (r : ResRef)
  /-- The thread takes the interrupt of a resource (R651 a). -/
  | interrupt (t : Nat) (r : ResRef)
  /-- A waiting thread is resumed, which R63 permits at any time, but for a thread that waits for an event (R540). -/
  | resume (t : Nat)
  /-- The reference clock changes its level (R454). -/
  | refEdge
  /-- A clock block looks at its source port's pin (R459). -/
  | clock (k : Nat)
  /-- The interconnect delivers the head token of a channel end (R405). -/
  | deliver (c : Nat)
  /-- The environment takes a head token whose destination is outside the model (R408). -/
  | envTake (c : Nat)
  /-- The environment sends a token to a channel end (R408). -/
  | envToken (c : Nat) (tok : Token)
  /-- The environment changes the value it puts on a port's pins (R469). -/
  | envPins (p : Nat) (v : Word)
  /-- The debug host requests debug entry (R591). -/
  | debugRequest (cause : Word)
deriving DecidableEq, Repr

/-- An old parcel that a thread's instruction buffer may still hold after a store to its code (R112, log 13). -/
structure StaleParcel where
  thread : Nat
  addr : Nat
  parcel : Parcel
deriving DecidableEq, Repr

/-- The state of one XCore. -/
structure State where
  /-- The platform; read and never written. -/
  plat : Platform
  threads : List Thread
  /-- Slave threads paused, a set of thread numbers, strictly rising (R57). -/
  spaused : List Nat
  /-- Master threads paused, a set of thread numbers, strictly rising (R57). -/
  mpaused : List Nat
  /-- Memory: listed bytes, addresses strictly rising, none equal to what an unlisted byte reads as. -/
  mem : List Host.Cell
  /-- Old parcels that instruction buffers may still hold (R112). -/
  stale : List StaleParcel
  timers : List Timer
  chans : List Chanend
  syncs : List Sync
  locks : List Lock
  clks : List ClockBlock
  ports : List Port
  /-- The counter all timers read (R64, R454). -/
  reftime : Word
  /-- The level of the reference clock (log 18). -/
  refLevel : Bool
  dbg : Debug
  /-- The executing thread (R15). -/
  tid : Nat
  /-- The address of the first parcel of the instruction being executed (R16). -/
  pcThis : Word
  /-- How many free values have been used (log 11); no statement rests on its value. -/
  free : Nat
  /-- The moves to come, next one first (log 14). -/
  agenda : List Move
  /-- The phase of the fixed schedule (log 14). -/
  turn : Nat
  /-- The thread the fixed schedule looks at first (log 14). -/
  rr : Nat
  /-- The channel ends the fixed schedule has delivered from, the latest last (R406; log 14). -/
  served : List Nat
  /-- The resources whose event or interrupt the fixed schedule has taken, the latest last (R746; log 14). -/
  taken : List ResRef
deriving DecidableEq, Repr

/-- Why the machine stops. -/
inductive Fault where
  /-- Raised by `step` when the platform has no hardware thread at all, so there is nothing to schedule. Safe: no
  XCore is built so, and no run from reset reaches it (log 27). -/
  | noThreads
deriving DecidableEq, Repr

/-- Why a step is not given a meaning. -/
inductive Refusal where
  /-- Raised by an arm of `exec` whose instruction has no meaning yet. Safe. -/
  | notModelled (mnemonic : String)
  /-- Raised by SETSR and CLRSR with a mask that names inint, sink or waiting, which R521 says a model refuses.
  Safe (log 28). -/
  | srMask
  /-- Raised by SSYNC, MSYNC and MJOIN where sr[inint] = 1 and the instruction would have to stop the thread, which
  R380 says a model refuses. Safe (log 29). -/
  | syncInInterrupt
  /-- Raised by SSYNC and TSETMR of a thread that no synchroniser created, which R376 and R380 say a model refuses.
  Safe (log 30). -/
  | noSynchroniser
  /-- Raised by DCALL where thread 0 is not in use or is paused at a synchroniser, which R592 says a model refuses, and
  in debug mode, which U10 of spec/93_implementation_defined.md says. Safe (log 31). -/
  | debugEntryUndefined
  /-- Raised by `step` where thread 0 is to issue at the BOOT_PC of a platform whose BOOT_PC is illegal, which R722 says a
  model should treat as a refused configuration. Safe (log 50). -/
  | bootPcIllegal
deriving DecidableEq, Repr

/-- The status register with every field 0 (R723). -/
def SR.zero : SR := ⟨false, false, false, false, false, false, false, false⟩

/-- A thread nobody has used: the values of R721 to R724, or the model's (log 6, log 7). -/
def Thread.blank : Thread where
  inuse := false
  regs := Vector.replicate 16 0#32
  pc := 0#32
  sr := SR.zero
  spc := 0#32
  ssr := 0#32
  et := 0#32
  ed := 0#32
  sed := 0#32
  kep := resetKep
  ksp := 0#32
  syn := none
  evwait := false

/-- Event state at reset (R725; log 8). -/
def EventState.blank : EventState := ⟨0, 0#32, 0#32, false, .event⟩

/-- A timer at reset (R725; log 8). -/
def Timer.blank : Timer := ⟨false, .uncond, 0#32, EventState.blank, none⟩

/-- A channel end at reset (R725; log 8). -/
def Chanend.blank : Chanend where
  inuse := false
  dest := 0#32
  destset := false
  net := 0#32
  es := EventState.blank
  inbuf := []
  route := false
  inmsg := false
  waiterIn := none
  waiterOut := none
  flight := []
  routedest := 0#32
  owner := none

/-- A synchroniser at reset (R725; log 8). -/
def Sync.blank : Sync := ⟨false, 0, [], false, false⟩

/-- A lock at reset (R725). That no owner is recorded is the model's choice (log 8). -/
def Lock.blank : Lock := ⟨false, false, none, []⟩

/-- A clock block at reset, stopped (R725). Its source, its divider and its ready-input port, none, are the model's
choice before INUSE_ON (log 8), and so is where its divider stands (log 18). -/
def ClockBlock.blank (ref : Word) : ClockBlock := ⟨false, ref, 0#8, false, none, false, false, 0⟩

/-- A port at reset: OFF, its pins not driven (R725). Its modes, those of the platform's defaults, its ready port and
its port time, none, and the other fields R725 does not name are the model's choice before INUSE_ON (log 8). -/
def Port.blank (modes : PortModes) (ref id : Word) : Port where
  id := id
  inuse := false
  modes := modes
  cond := .uncond
  data := 0#32
  es := EventState.blank
  running := false
  waiter := none
  transfer := 0#32
  trfull := false
  trwidth := idWidth id
  shift := 0#32
  sfill := 0
  shiftcount := idWidth id
  direction := .input
  ext := 0#32
  outval := 0#32
  driving := false
  porttimer := 0#16
  timestamp := 0#16
  porttime := 0#16
  porttimeset := false
  clk := ref
  rdyport := none
  rdyout := false
  held := true
  inputting := false
  pw := none

/-- The debug registers at reset (R727; log 10). That no external debug request is pending is the model's choice
(log 45). -/
def Debug.blank : Debug where
  dspc := 0#32
  dssr := 0#32
  dssp := 0#32
  dtype := 0#32
  dtid := 0#32
  dtreg := 0#32
  indbg := false
  dbgintHi := 0#31
  rambase := 0x00010000#32
  cells := []
  request := none

/-- Right after reset, on a given platform, with given numbers of resources (R731) and a given memory image (R729). A
platform with an illegal BOOT_PC is refused at the first issue of thread 0 (R722; log 50). -/
def State.resetOn (pl : Platform) (nthreads ntimers nchans nsyncs nlocks nclks : Nat) (portIds : List Word)
    (image : List Host.Cell) : State where
  plat := pl
  threads := { Thread.blank with inuse := true, pc := pl.bootPc, ksp := pl.kspBoot } ::
    List.replicate (nthreads - 1) Thread.blank
  spaused := []
  mpaused := []
  mem := image
  stale := []
  timers := List.replicate ntimers Timer.blank
  chans := List.replicate nchans Chanend.blank
  syncs := List.replicate nsyncs Sync.blank
  locks := List.replicate nlocks Lock.blank
  clks := List.replicate nclks (ClockBlock.blank pl.refClkId)
  ports := portIds.map (Port.blank pl.portDefaults pl.refClkId)
  reftime := 0#32
  refLevel := false
  dbg := Debug.blank
  tid := 0
  pcThis := 0#32
  free := 0
  agenda := []
  turn := 0
  rr := 0
  served := []
  taken := []

/-- The machine right after reset, on the default platform with the numbers R10 suggests and a memory image that
defines nothing (log 4, log 5). -/
def State.reset : State := State.resetOn defaultPlatform 8 10 32 7 4 6 defaultPortIds []

end Sys2Proof.Machine
end

