-- ==== Sys2Proof/Machine/Flags.lean ====
section
/-! DEFINITION. The status register as a word (R35 of spec/10_state.md), and how the entry sequences, the returns and
SETSR and CLRSR change it. The XCore has no condition codes (R40), so these are all its flag computations. -/
namespace Sys2Proof.Machine

/-- One bit of a word, in place. -/
def bitAt (b : Bool) (i : Nat) : Word := if b then 1#32 <<< i else 0#32

/-- The status register read as a word (R35): bits 31..8 are zero. -/
def SR.toWord (r : SR) : Word :=
  bitAt r.eeble 0 ||| bitAt r.ieble 1 ||| bitAt r.inenb 2 ||| bitAt r.inint 3 |||
  bitAt r.ink 4 ||| bitAt r.sink 5 ||| bitAt r.waiting 6 ||| bitAt r.fast 7

/-- The status register written with a word (R35): only the implemented bits count. -/
def SR.ofWord (w : Word) : SR where
  eeble := w.getLsbD 0
  ieble := w.getLsbD 1
  inenb := w.getLsbD 2
  inint := w.getLsbD 3
  ink := w.getLsbD 4
  sink := w.getLsbD 5
  waiting := w.getLsbD 6
  fast := w.getLsbD 7

/-- The status register KRET and DRET restore (R554, R594): the implemented bits of the saved word, with waiting
cleared. -/
def SR.restored (w : Word) : SR := { SR.ofWord w with waiting := false }

/-- The status register after exception or kernel-call entry (R660, R661). -/
def SR.exceptionEntry (r : SR) : SR :=
  { r with sink := r.ink, ink := true, eeble := false, ieble := false }

/-- The status register after event entry (R655). -/
def SR.eventEntry (r : SR) : SR :=
  { r with inenb := false, eeble := false, waiting := false }

/-- The status register after interrupt entry (R657). -/
def SR.interruptEntry (r : SR) : SR :=
  { r with sink := r.ink, inint := true, ink := true, eeble := false, ieble := false, waiting := false }

/-- The status register after debug entry (R592). -/
def SR.debugEntry (r : SR) : SR :=
  { r with sink := r.ink, inint := true, ink := true, eeble := false, ieble := false, inenb := false,
           waiting := false }

/-- The status register with the bits of a mask set (R521). -/
def SR.setMask (r : SR) (m : Word) : SR := SR.ofWord (r.toWord ||| m)

/-- The status register with the bits of a mask cleared (R522). -/
def SR.clearMask (r : SR) (m : Word) : SR := SR.ofWord (r.toWord &&& ~~~m)

/-- The bits inint, sink and waiting, which SETSR and CLRSR may not name (R521). -/
def srTestOnly : Word := 0x68#32

/-- The mask names a bit that SETSR and CLRSR may not write (R521). -/
def maskRefused (m : Word) : Bool := m &&& srTestOnly != 0#32

end Sys2Proof.Machine
end

