-- ==== Sys2Proof/Machine/Memory.lean ====
section
/-! DEFINITION. Memory (spec/20_memory.md): one little-endian byte memory, held as listed cells in a canonical form;
which addresses exist (R91) and what an access must satisfy (R97). -/
namespace Sys2Proof.Machine

/-- What a byte that is not listed reads as (DESIGN CHOICE, log 4). -/
def unlistedByte : Byte := 0#8

/-- The canonical form: addresses strictly rising, no cell equal to what an unlisted address reads as. -/
def Memory.wf : List Host.Cell → Bool
  | [] => true
  | (k, b) :: m => b != unlistedByte && m.all (fun c => decide (k < c.1)) && Memory.wf m

/-- Read one byte. -/
def Memory.read : List Host.Cell → Nat → Byte
  | [], _ => unlistedByte
  | (k, b) :: m, a => if a = k then b else Memory.read m a

/-- Write one byte, keeping the canonical form. -/
def Memory.write : List Host.Cell → Nat → Byte → List Host.Cell
  | [], a, v => if v = unlistedByte then [] else [(a, v)]
  | (k, b) :: m, a, v =>
    if a < k then if v = unlistedByte then (k, b) :: m else (a, v) :: (k, b) :: m
    else if a = k then if v = unlistedByte then m else (a, v) :: m
    else (k, b) :: Memory.write m a v

/-- Read n bytes, the least significant at the lowest address (R94). -/
def Memory.readN (m : List Host.Cell) (a : Nat) : Nat → Nat
  | 0 => 0
  | n + 1 => (Memory.read m a).toNat + 256 * Memory.readN m (a + 1) n

/-- Write the low n bytes of a number, the least significant at the lowest address (R94). -/
def Memory.writeN (m : List Host.Cell) (a : Nat) : Nat → Nat → List Host.Cell
  | 0, _ => m
  | n + 1, v => Memory.writeN (Memory.write m a (BitVec.ofNat 8 v)) (a + 1) n (v / 256)

/-- The parcel at an address (R96). -/
def Memory.parcel (m : List Host.Cell) (a : Nat) : Parcel := BitVec.ofNat 16 (Memory.readN m a 2)

/-- The address lies in RAM (R91). -/
def inRam (pl : Platform) (a : Nat) : Bool := pl.ramBase ≤ a && a < pl.ramBase + pl.ramSize

/-- The address lies in ROM (R91). -/
def inRom (pl : Platform) (a : Nat) : Bool := pl.romBase ≤ a && a < pl.romBase + pl.romSize

/-- MemValid (R91). -/
def memValid (pl : Platform) (a : Nat) : Bool := inRam pl a || inRom pl a

/-- A read of n bytes at a is legal (R97). -/
def readable (pl : Platform) (a : Word) (n : Nat) : Bool := a.toNat % n = 0 && memValid pl a.toNat

/-- A write of n bytes at a is legal (R97): it is not in ROM either. -/
def writable (pl : Platform) (a : Word) (n : Nat) : Bool := readable pl a n && !inRom pl a.toNat

/-- A program counter is legal (R34, R664): even, and at an address that exists. -/
def legalPc (pl : Platform) (pc : Word) : Bool := pc.toNat % 2 = 0 && memValid pl pc.toNat

/-- The byte of a state's memory at an address. -/
def State.byte (s : State) (a : Nat) : Byte := Memory.read s.mem a

/-- MemRead (R94): n bytes at a, zero-extended; the caller has checked `readable`. -/
def State.memRead (s : State) (a : Word) (n : Nat) : Word := word (Memory.readN s.mem a.toNat n)

end Sys2Proof.Machine
end

