-- ==== Sys2Proof/Machine/Operands.lean ====
section
/-! DEFINITION. The operand forms: the registers named by position, immediates, the bitp table, bit fields, and the
address arithmetic that loads, stores and branches share (R201, R310). -/
namespace Sys2Proof.Machine

/-- r11, the implicit operand of R31. -/
def r11 : Reg := 11
/-- The constant pool pointer (R33). -/
def cp : Reg := 12
/-- The data pointer (R33). -/
def dp : Reg := 13
/-- The stack pointer (R33). -/
def sp : Reg := 14
/-- The link register (R33). -/
def lr : Reg := 15

/-- An unsigned immediate as a word (R151). -/
def immWord {n : Nat} (i : BitVec n) : Word := i.setWidth 32

/-- A `us` operand as a word (R133). -/
def usWord (u : Us) : Word := word u.val

/-- The bitp table (R150): the number of bits an index stands for. An index above 11 is no operand. -/
def bitp (u : Us) : Nat :=
  match u.val with
  | 0 => 32
  | 9 => 16
  | 10 => 24
  | 11 => 32
  | n => n

/-- A word offset forward from a base (R201): base + index * 4, mod 2^32. -/
def wordAt (base index : Word) : Word := base + index * 4#32

/-- A word offset backward from a base (R201). -/
def wordBack (base index : Word) : Word := base - index * 4#32

/-- A 16-bit offset forward from a base (R201). -/
def halfAt (base index : Word) : Word := base + index * 2#32

/-- A 16-bit offset backward from a base (R201). -/
def halfBack (base index : Word) : Word := base - index * 2#32

/-- A truth value in a register (R40). -/
def boolWord (b : Bool) : Word := if b then 1#32 else 0#32

/-- A word with n one bits at the right (R286); n at least 32 gives all ones. -/
def maskWord (n : Nat) : Word := word (2 ^ min n 32 - 1)

/-- Bits n - 1 .. 0 of a word, the rest zero (R290), for n from 1 to 31; otherwise the word itself. -/
def zeroExtend (w : Word) (n : Nat) : Word :=
  if n = 0 || 32 ≤ n then w else w &&& maskWord n

/-- Bits n - 1 .. 0 of a word, bit n - 1 copied above (R288), for n from 1 to 31; otherwise the word itself. -/
def signExtend (w : Word) (n : Nat) : Word :=
  if n = 0 || 32 ≤ n then w
  else if w.getLsbD (n - 1) then (w &&& maskWord n) ||| ~~~(maskWord n) else w &&& maskWord n

/-- Bits lo + n - 1 .. lo of a word as a number (R11). -/
def bits (w : Word) (lo n : Nat) : Nat := w.toNat / 2 ^ lo % 2 ^ n

/-- A register operand from its small number. -/
def regOf (n : Nat) : Reg := Fin.ofNat 16 n

end Sys2Proof.Machine
end

