-- ==== Sys2Proof/Machine/Ops.lean ====
section
/-! DEFINITION. The named operations the meanings are made of: threads and their registers, control transfer, loads and
stores, taking an exception and returning from one (R660, R661, R554), pausing and resuming (R62, R63), resource
identifiers (R351 to R353), and the resources' own accessors. -/
namespace Sys2Proof.Machine

/-- What an instruction or a step answers. -/
abbrev Result := Host.Outcome State Fault Refusal

/-! ## Threads and registers -/

/-- Thread t; an idle one where there is no thread t. -/
def State.thr (s : State) (t : Nat) : Thread := s.threads.getD t Thread.blank

/-- Change thread t. -/
def State.updThr (s : State) (t : Nat) (f : Thread → Thread) : State :=
  { s with threads := s.threads.modify t f }

/-- The executing thread. -/
def State.cur (s : State) : Thread := s.thr s.tid

/-- Change the executing thread. -/
def State.updCur (s : State) (f : Thread → Thread) : State := s.updThr s.tid f

/-- A register of a thread by its number (R33). -/
def Thread.get (t : Thread) (i : Reg) : Word := t.regs.get i

/-- A register of a thread written. -/
def Thread.put (t : Thread) (i : Reg) (v : Word) : Thread := { t with regs := t.regs.set i v }

/-- Read a register of the executing thread (R15). -/
def State.x (s : State) (i : Reg) : Word := s.cur.get i

/-- Write a register of the executing thread (R15). -/
def State.setX (s : State) (i : Reg) (v : Word) : State := s.updCur fun t => t.put i v

/-- Write a register and go on to the next instruction. -/
def writeReg (d : Reg) (v : Word) (s : State) : Result := .next (s.setX d v)

/-- One of two values, a free choice between them (log 12). -/
def State.eitherOf (s : State) (a b : Word) : Word := if Config.freeNat s.free % 2 = 0 then a else b

/-- Write two destinations. Where both name the same register, which value it holds is a free choice (R620 c). -/
def writePair (d e : Reg) (v w : Word) (s : State) : Result :=
  if d = e then .next ({ s with free := s.free + 1 }.setX d (s.eitherOf v w))
  else .next ((s.setX e w).setX d v)

/-! ## Control transfer -/

/-- Set the pc of a thread other than by sequential advance: its instruction buffer is empty after it (R112), so no old
parcel is left for it. -/
def State.jumpThr (s : State) (t : Nat) (target : Word) : State :=
  { s.updThr t fun th => { th with pc := target } with stale := s.stale.filter fun e => e.thread != t }

/-- pc <- target (R15) for the executing thread. -/
def State.jump (s : State) (target : Word) : State := s.jumpThr s.tid target

/-- The pc an instruction sees: the address of the next instruction (R16). -/
def State.pcNext (s : State) : Word := s.cur.pc

/-! ## Exceptions -/

/-- The code of an exception type (R666). -/
def ExcType.code : ExcType → Word
  | .linkError => 1#32
  | .illegalPc => 2#32
  | .illegalInstruction => 3#32
  | .illegalResource => 4#32
  | .loadStore => 5#32
  | .illegalPs => 6#32
  | .arithmetic => 7#32
  | .ecall => 8#32
  | .kcall => 15#32

/-- What exception and kernel-call entry save and change in the thread's registers, but for pc (R660, R661). -/
def Thread.saveForException (t : Thread) (pcThis code info : Word) : Thread :=
  { t with spc := pcThis, ssr := t.sr.toWord, et := code, sed := t.ed, ed := info, sr := t.sr.exceptionEntry }

/-- Taking an exception: the one operation behind every `raise` and the kernel calls (R660, R661). -/
def State.takeException (s : State) (code info vector : Word) : State :=
  (s.updCur fun t => t.saveForException s.pcThis code info).jump vector

/-- raise ET_X(info) (R660): enter at kep. -/
def State.raise (s : State) (e : ExcType) (info : Word) : State :=
  s.takeException (ExcType.code e) info s.cur.kep

/-- The outcome of an instruction that raises. -/
def raised (e : ExcType) (info : Word) (s : State) : Result := .next (s.raise e info)

/-- Kernel-call entry (R661): enter at kep + 64. -/
def State.kernelCall (s : State) (info : Word) : State :=
  s.takeException (ExcType.code .kcall) info (s.cur.kep + 64#32)

/-- The return from interrupt, exception and kernel call (R554, R668). -/
def State.kernelReturn (s : State) : State :=
  (s.updCur fun t => { t with sr := SR.restored t.ssr, ed := t.sed }).jump s.cur.spc

/-! ## Loads and stores -/

/-- The parcels that lie in the eight bytes from a pc on (R112): four, at the even addresses fetches read. From an odd pc
they are five, the outer two lying there by half, which is the model's choice (log 13). -/
def bufferParcels (pc : Word) : List Word :=
  if pc.toNat % 2 = 0 then [pc, pc + 2#32, pc + 4#32, pc + 6#32]
  else [pc - 1#32, pc + 1#32, pc + 3#32, pc + 5#32, pc + 7#32]

/-- The parcels of a thread's instruction buffer that a change of memory makes old (R112): of those that lie there, the
ones that the change alters. The thread may be one that is not in use. -/
def staleOf (s : State) (mem' : List Host.Cell) (t : Nat) : List StaleParcel :=
  (bufferParcels (s.thr t).pc).filterMap fun w =>
    let a := w.toNat
    if Memory.parcel s.mem a = Memory.parcel mem' a then none else some ⟨t, a, Memory.parcel s.mem a⟩

/-- MemWrite (R94): n bytes at a; the caller has checked `writable`. What instruction buffers may still hold of the old
bytes is recorded (R112, log 13). -/
def State.memWrite (s : State) (a : Word) (n : Nat) (v : Word) : State :=
  let mem' := Memory.writeN s.mem a.toNat n v.toNat
  { s with mem := mem', stale := (List.range s.threads.length).flatMap (staleOf s mem') ++ s.stale }

/-- Load n bytes at a into a register, after the checks of R97. -/
def loadReg (d : Reg) (a : Word) (n : Nat) (ext : Word → Word) (s : State) : Result :=
  if readable s.plat a n then writeReg d (ext (s.memRead a n)) s else raised .loadStore a s

/-- Store the low n bytes of a value at a, after the checks of R97. -/
def storeVal (a : Word) (n : Nat) (v : Word) (s : State) : Result :=
  if writable s.plat a n then .next (s.memWrite a n v) else raised .loadStore a s

/-- Load a word at a and continue with it, after the checks of R97. -/
def loadThen (a : Word) (k : Word → State → Result) (s : State) : Result :=
  if readable s.plat a 4 then k (s.memRead a 4) s else raised .loadStore a s

/-! ## Sets of thread numbers -/

/-- Add a number to a strictly rising list. -/
def insertSet (n : Nat) : List Nat → List Nat
  | [] => [n]
  | k :: l => if n < k then n :: k :: l else if n = k then k :: l else k :: insertSet n l

/-- Remove the members of one set from another. -/
def minusSet (a b : List Nat) : List Nat := a.filter fun n => !b.contains n

/-! ## Resource identifiers -/

/-- type(r) (R350). -/
def resType (r : Word) : Nat := bits r 0 8
/-- num(r) (R350). -/
def resNum (r : Word) : Nat := bits r 8 8
/-- The resource-specific data of an identifier (R351). -/
def resSpecific (r : Word) : Nat := bits r 16 16

/-- A resource of this XCore that an identifier can name (R47). -/
inductive Res where
  | port (n : Nat)
  | timer (n : Nat)
  | chan (n : Nat)
  | sync (n : Nat)
  | thread (n : Nat)
  | lock (n : Nat)
  | clk (n : Nat)
deriving DecidableEq, Repr

/-- Identifier of a resource whose specific data is zero (R351). -/
def plainId (type n : Nat) : Word := word (n * 256 + type)

/-- The node and core fields of this XCore's channel ends (R351). -/
def chanSpecific (pl : Platform) : Nat := pl.nodeId.toNat * 256 + pl.coreId.toNat

/-- Identifier of channel end n (R351). -/
def chanId (pl : Platform) (n : Nat) : Word := word (chanSpecific pl * 65536 + n * 256 + 2)

/-- The resource an identifier names: valid(r, T) of R352, with its type T and its number. -/
def State.lookup (s : State) (r : Word) : Option Res :=
  let n := resNum r
  match resType r with
  | 0 => if r = 0#32 then none else (s.ports.findIdx? fun p => p.id == r).map .port
  | 1 => if resSpecific r = 0 && n < s.timers.length then some (.timer n) else none
  | 2 => if resSpecific r = chanSpecific s.plat && n < s.chans.length then some (.chan n) else none
  | 3 => if resSpecific r = 0 && n < s.syncs.length then some (.sync n) else none
  | 4 => if resSpecific r = 0 && n < s.threads.length then some (.thread n) else none
  | 5 => if resSpecific r = 0 && n < s.locks.length then some (.lock n) else none
  | 6 => if resSpecific r = 0 && n < s.clks.length then some (.clk n) else none
  | _ => none

/-! ## Resources -/

/-- A port that stands for a number out of range. -/
def Port.absent : Port := Port.blank defaultPortModes 0#32 0#32

/-- Port n. -/
def State.port (s : State) (n : Nat) : Port := s.ports.getD n Port.absent
/-- Timer n. -/
def State.timer (s : State) (n : Nat) : Timer := s.timers.getD n Timer.blank
/-- Channel end n. -/
def State.chan (s : State) (n : Nat) : Chanend := s.chans.getD n Chanend.blank
/-- Synchroniser n. -/
def State.sync (s : State) (n : Nat) : Sync := s.syncs.getD n Sync.blank
/-- Lock n. -/
def State.lock (s : State) (n : Nat) : Lock := s.locks.getD n Lock.blank
/-- Clock block n. -/
def State.clk (s : State) (n : Nat) : ClockBlock := s.clks.getD n (ClockBlock.blank s.plat.refClkId)

/-- Change port n. -/
def State.updPort (s : State) (n : Nat) (f : Port → Port) : State := { s with ports := s.ports.modify n f }
/-- Change timer n. -/
def State.updTimer (s : State) (n : Nat) (f : Timer → Timer) : State := { s with timers := s.timers.modify n f }
/-- Change channel end n. -/
def State.updChan (s : State) (n : Nat) (f : Chanend → Chanend) : State := { s with chans := s.chans.modify n f }
/-- Change synchroniser n. -/
def State.updSync (s : State) (n : Nat) (f : Sync → Sync) : State := { s with syncs := s.syncs.modify n f }
/-- Change lock n. -/
def State.updLock (s : State) (n : Nat) (f : Lock → Lock) : State := { s with locks := s.locks.modify n f }
/-- Change clock block n. -/
def State.updClk (s : State) (n : Nat) (f : ClockBlock → ClockBlock) : State := { s with clks := s.clks.modify n f }

/-- inuse(r) (R353). -/
def State.inuse (s : State) : Res → Bool
  | .port n => (s.port n).inuse
  | .timer n => (s.timer n).inuse
  | .chan n => (s.chan n).inuse
  | .sync n => (s.sync n).inuse
  | .thread n => (s.thr n).inuse
  | .lock n => (s.lock n).inuse
  | .clk n => (s.clk n).inuse

/-- The resource an identifier names where it is valid and in use: the first common check (R354). -/
def State.live (s : State) (r : Word) : Option Res := (s.lookup r).filter s.inuse

/-- ET_ILLEGAL_RESOURCE with the identifier passed to the instruction (R673). -/
def badResource (r : Word) (s : State) : Result := raised .illegalResource r s

/-- Continue with a port in use, or raise. -/
def withPort (r : Word) (k : Nat → State → Result) (s : State) : Result :=
  match s.live r with
  | some (.port n) => k n s
  | _ => badResource r s

/-- Continue with a channel end in use, or raise. -/
def withChan (r : Word) (k : Nat → State → Result) (s : State) : Result :=
  match s.live r with
  | some (.chan n) => k n s
  | _ => badResource r s

/-- Continue with a synchroniser in use, or raise. -/
def withSync (r : Word) (k : Nat → State → Result) (s : State) : Result :=
  match s.live r with
  | some (.sync n) => k n s
  | _ => badResource r s

/-- Continue with a thread in use, or raise. -/
def withThread (r : Word) (k : Nat → State → Result) (s : State) : Result :=
  match s.live r with
  | some (.thread n) => k n s
  | _ => badResource r s

/-! ## Pausing and resuming -/

/-- The executing thread waits (R62, R540), its pc set back to this instruction; `ev` says whether for an event, which
nothing but an entry ends (log 44). -/
def State.await (s : State) (ev : Bool) : State :=
  s.updCur fun t => { t with pc := s.pcThis, sr := { t.sr with waiting := true }, evwait := ev }

/-- The executing thread pauses (R62). -/
def State.pause (s : State) : State := s.await false

/-- The outcome of an instruction that pauses with no resource involved. -/
def paused (s : State) : Result := .next s.pause

/-- Pause on a port, which learns who waits (R61). -/
def pauseOnPort (n : Nat) (s : State) : Result :=
  .next (s.updPort n fun p => { p with waiter := some s.tid }).pause

/-- Pause on a timer (R61). -/
def pauseOnTimer (n : Nat) (s : State) : Result :=
  .next (s.updTimer n fun t => { t with waiter := some s.tid }).pause

/-- Pause on the input of a channel end (R66). -/
def pauseOnChanIn (n : Nat) (s : State) : Result :=
  .next (s.updChan n fun c => { c with waiterIn := some s.tid }).pause

/-- Pause on the output of a channel end (R66). -/
def pauseOnChanOut (n : Nat) (s : State) : Result :=
  .next (s.updChan n fun c => { c with waiterOut := some s.tid }).pause

/-- Forget a thread where it is the one recorded. -/
def forget (t : Nat) (o : Option Nat) : Option Nat := if o = some t then none else o

/-- Remove a thread from every waiting record (R63). -/
def State.clearWaiter (s : State) (t : Nat) : State :=
  { s with
    ports := s.ports.map fun p => { p with waiter := forget t p.waiter }
    timers := s.timers.map fun x => { x with waiter := forget t x.waiter }
    chans := s.chans.map fun c => { c with waiterIn := forget t c.waiterIn, waiterOut := forget t c.waiterOut } }

/-- Take a thread away from all it was doing with resources (R655, R657, R592): its waiting records, the lock queues and
a partial input it had begun. -/
def State.detach (s : State) (t : Nat) : State :=
  let s := s.clearWaiter t
  { s with
    locks := s.locks.map fun l => { l with queue := l.queue.filter fun q => q != t }
    ports := s.ports.map fun p => { p with pw := forget t p.pw } }

/-- Resume a waiting thread (R63): it will issue the same instruction again. -/
def State.resumeThr (s : State) (t : Nat) : State :=
  (s.clearWaiter t).updThr t fun th => { th with sr := { th.sr with waiting := false } }

/-! ## Event state -/

/-- The event state of a resource. -/
def State.es (s : State) : ResRef → EventState
  | .timer n => (s.timer n).es
  | .chan n => (s.chan n).es
  | .port n => (s.port n).es

/-- Change the event state of a resource. -/
def State.updEs (s : State) (r : ResRef) (f : EventState → EventState) : State :=
  match r with
  | .timer n => s.updTimer n fun t => { t with es := f t.es }
  | .chan n => s.updChan n fun c => { c with es := f c.es }
  | .port n => s.updPort n fun p => { p with es := f p.es }

/-- Continue with a port, timer or channel end in use, or raise (R526). -/
def withEventRes (r : Word) (k : ResRef → State → Result) (s : State) : Result :=
  match s.live r with
  | some (.timer n) => k (.timer n) s
  | some (.chan n) => k (.chan n) s
  | some (.port n) => k (.port n) s
  | _ => badResource r s

/-- after(now, x) (R456). -/
def afterTime (now x : Word) : Bool := 1 ≤ (now - x).toNat && (now - x).toNat ≤ 2 ^ 31 - 1

/-- ready_t of a timer (R456). -/
def State.timerReady (s : State) (n : Nat) : Bool :=
  if (s.timer n).cond = .after then afterTime s.reftime (s.timer n).data else true

/-- ready_c of a channel end (R412). -/
def State.chanReady (s : State) (n : Nat) : Bool := !(s.chan n).inbuf.isEmpty

/-- ready_p of a port (R480). -/
def State.portReady (s : State) (n : Nat) : Bool := (s.port n).direction = .input && (s.port n).trfull

/-- ready_r (R54). -/
def State.ready (s : State) : ResRef → Bool
  | .timer n => s.timerReady n
  | .chan n => s.chanReady n
  | .port n => s.portReady n

/-- The resource is in use (R353). -/
def State.refInuse (s : State) : ResRef → Bool
  | .timer n => (s.timer n).inuse
  | .chan n => (s.chan n).inuse
  | .port n => (s.port n).inuse

/-! ## Debug entry -/

/-- Debug entry has a meaning (R592): thread 0 is in use and paused at no synchroniser. -/
def State.debugCanEnter (s : State) : Bool :=
  (s.thr 0).inuse && !s.spaused.contains 0 && !s.mpaused.contains 0

/-- debug_entry(cause) (R592). -/
def State.debugEnter (s : State) (cause : Word) : State :=
  let s' := s.detach 0
  let d := { s'.dbg with dspc := (s.thr 0).pc, dssr := (s.thr 0).sr.toWord, dtype := cause, indbg := true }
  ({ s' with dbg := d }.updThr 0 fun t => { t with sr := t.sr.debugEntry }).jumpThr 0 s.plat.debugEntry

end Sys2Proof.Machine
end

