-- ==== Sys2Proof/Machine/Agents.lean ====
section
/-! DEFINITION. The agents besides the threads: the reference clock, the clock blocks and the ports (R450 to R473 of
spec/45_timers_clocks_ports.md), the interconnect and the environment (R404 to R408 of
spec/44_communication_locks.md), and the entries of events and interrupts (R655, R657 of spec/60_exceptions.md). -/
namespace Sys2Proof.Machine

/-! ## Pins -/

/-- The width of a port in bits (R70). -/
def Port.width (p : Port) : Nat := idWidth p.id

/-- The low n bits of a word, as a word. -/
def lowBits (w : Word) (n : Nat) : Word := w &&& maskWord n

/-- The value complemented where the port is in INVERT mode (R468); INVERT is for 1-bit ports. -/
def Port.inverted (p : Port) (v : Word) : Word :=
  if p.modes.invert = .invert then lowBits (~~~v) p.width else lowBits v p.width

/-- The pins where the port drives a value and the environment another (R468). -/
def Port.drivenPins (p : Port) (v : Word) : Word :=
  match p.modes.drive with
  | .drive => lowBits v p.width
  | .pullDown => lowBits (v &&& p.ext) p.width
  | .pullUp => lowBits (v ||| p.ext) p.width

/-- The level of the clock an identifier names: the reference clock for REF_CLK_ID, else a clock block (R462). -/
def State.clockLevel (s : State) (id : Word) : Bool :=
  if id = s.plat.refClkId then s.refLevel
  else match s.lookup id with
    | some (.clk k) => (s.clk k).level
    | _ => false

/-- The value on the pins of port n (R468, R469). -/
def State.pins (s : State) (n : Nat) : Word :=
  let p := s.port n
  if !p.inuse then lowBits p.ext p.width
  else match p.modes.porttype with
    | .clockPort => p.drivenPins (p.inverted (boolWord (s.clockLevel p.clk)))
    | .readyPort =>
      match p.rdyport.bind s.lookup with
      | some (.port q) => p.drivenPins (p.inverted (boolWord (s.port q).rdyout))
      | _ => lowBits p.ext p.width
    | .dataPort => if p.driving then p.drivenPins (p.inverted p.outval) else lowBits p.ext p.width

/-- rdyin_p (R463): the pin of the ready-input port of the port's clock block; true where there is none. -/
def State.rdyin (s : State) (p : Port) : Bool :=
  if p.clk = s.plat.refClkId then true
  else match s.lookup p.clk with
    | some (.clk k) =>
      match (s.clk k).rdysrc.bind s.lookup with
      | some (.port q) => (s.pins q).getLsbD 0
      | _ => true
    | _ => true

/-! ## A port's clock cycle -/

/-- The port has data to output or room to input (R467). -/
def Port.hasWork (p : Port) : Bool :=
  match p.direction with
  | .output => p.trfull || p.sfill != 0
  | .input =>
    match p.modes.bufmode with
    | .synchronised => !p.trfull
    | .buffered => p.sfill < p.shiftcount || !p.trfull

/-- The cycle is enabled (R467). -/
def Port.enabled (p : Port) (rdyin : Bool) : Bool :=
  match p.modes.rdymode, p.modes.msmode with
  | .noReady, _ => true
  | .strobed, .master => true
  | .strobed, .slave => rdyin
  | .handshaken, _ => p.hasWork && rdyin

/-- rdyout_p in a cycle (R467), given whether the port moved data in it. -/
def Port.rdyoutOf (p : Port) (rdyin moved : Bool) : Bool :=
  match p.modes.rdymode, p.modes.msmode with
  | .noReady, _ => false
  | .strobed, .master => moved
  | .strobed, .slave => false
  | .handshaken, .master => p.hasWork
  | .handshaken, .slave => p.enabled rdyin

/-- timeok (R472). -/
def Port.timeok (p : Port) : Bool := !p.porttimeset || p.porttimer = p.porttime

/-- condmet(x) (R472). -/
def Port.condmet (p : Port) (x : Word) : Bool :=
  match p.cond with
  | .eq => x = lowBits p.data p.width
  | .neq => x != lowBits p.data p.width
  | _ => true

/-- wanted_p (R472). -/
def Port.wanted (p : Port) : Bool := p.waiter.isSome || p.es.enb || p.cond != .uncond || p.porttimeset

/-- Note a transfer: the time stamp, and the port time used up (R472). -/
def Port.stamped (p : Port) : Port := { p with timestamp := p.porttimer, porttimeset := false }

/-- Drive a value (R468): what the port puts on its pins from now on. -/
def Port.driveOut (p : Port) (v : Word) : Port :=
  { p with outval := lowBits v p.width, driving := true, held := false }

/-- An enabled cycle of a SYNCHRONISED port, and whether it moved data (R472). -/
def Port.cycleSync (p : Port) (x : Word) : Port × Bool :=
  match p.direction with
  | .output =>
    if p.trfull && p.timeok then (({ p with trfull := false }.driveOut p.transfer).stamped, true) else (p, false)
  | .input =>
    if !p.trfull && p.timeok && p.wanted && p.condmet x then
      ({ p with transfer := x, trfull := true, cond := .uncond }.stamped, true)
    else (p, false)

/-- One item enters the shift register at the top and the older ones move down (R473). -/
def Port.shiftIn (p : Port) (x : Word) : Word :=
  word (x.toNat % 2 ^ p.width * 2 ^ (p.trwidth - p.width) + p.shift.toNat % 2 ^ p.trwidth / 2 ^ p.width)

/-- An enabled input cycle of a BUFFERED port with a condition, and whether it moved data (R473). -/
def Port.cycleCond (p : Port) (x : Word) : Port × Bool :=
  let p := { p with shift := p.shiftIn x }
  if p.condmet x then
    ({ p with transfer := p.shift, trfull := true, timestamp := p.porttimer, cond := .uncond, sfill := 0,
              shiftcount := p.trwidth }, true)
  else (p, true)

/-- A complete item moves from the shift register to the transfer register (R473). -/
def Port.refill (p : Port) : Port :=
  if p.sfill = p.shiftcount && !p.trfull && p.timeok then
    { p with transfer := p.shift >>> (p.trwidth - p.shiftcount), trfull := true, sfill := 0,
             shiftcount := p.trwidth }.stamped
  else p

/-- An enabled input cycle of a BUFFERED port without a condition, and whether it moved data (R473). -/
def Port.cycleIn (p : Port) (x : Word) : Port × Bool :=
  if p.sfill < p.shiftcount || p.modes.rdymode != .handshaken then
    ({ p with shift := p.shiftIn x, sfill := min (p.sfill + p.width) p.shiftcount }.refill, true)
  else (p.refill, false)

/-- The transfer register moves to an empty shift register (R473). -/
def Port.reload (p : Port) : Port :=
  if p.sfill = 0 && p.trfull && p.timeok then
    { p with shift := p.transfer, sfill := p.shiftcount, trfull := false, shiftcount := p.trwidth }.stamped
  else p

/-- An enabled output cycle of a BUFFERED port, and whether it moved data (R473). -/
def Port.cycleOut (p : Port) : Port × Bool :=
  let p := p.reload
  if p.sfill = 0 then (p, false)
  else ({ p with shift := p.shift >>> p.width, sfill := p.sfill - p.width }.driveOut p.shift, true)

/-- An enabled cycle of a port, and whether it moved data. -/
def Port.cycleEnabled (p : Port) (x : Word) : Port × Bool :=
  match p.modes.bufmode, p.direction with
  | .synchronised, _ => p.cycleSync x
  | .buffered, .output => p.cycleOut
  | .buffered, .input => if p.cond = .uncond then p.cycleIn x else p.cycleCond x

/-- A SETPT transfer is due on a SYNCHRONISED port that outputs and has been given nothing to output: its direction will
be input (R479; log 43). -/
def Port.turnsIn (p : Port) : Bool :=
  p.direction = .output && p.modes.bufmode = .synchronised && !p.trfull && p.porttimeset && p.porttimer = p.porttime

/-- The setup of a clock cycle (R462): the port timer advances and the direction changes (R479). -/
def Port.advanced (p : Port) : Port :=
  let p := { p with porttimer := p.porttimer + 1#16, held := true }
  { p with direction := if p.turnsIn then .input else p.direction }

/-- A port whose direction is input stops driving its pins (R469, R479). -/
def Port.setup (p : Port) : Port :=
  let p := p.advanced
  { p with driving := p.driving && decide (p.direction = Direction.output) }

/-- The rest of a clock cycle (R462): where it is enabled the port takes its data step with the value `x` the port logic
sees. -/
def Port.cycle (p : Port) (rdyin : Bool) (x : Word) : Port :=
  if p.enabled rdyin then
    let r := p.cycleEnabled x
    { r.1 with rdyout := p.rdyoutOf rdyin r.2 }
  else { p with rdyout := p.rdyoutOf rdyin false }

/-- The ports for which `sel` holds take one clock cycle together (R462): all are set up, then all see the pins as they
are then. -/
def State.cyclePorts (s : State) (sel : Port → Bool) : State :=
  let on := fun p : Port => p.inuse && p.running && sel p
  let s' := { s with ports := s.ports.map fun p => if on p then p.setup else p }
  { s with ports := (List.range s.ports.length).map fun n =>
      let p := s'.port n
      if on (s.port n) then p.cycle (s'.rdyin p) (p.inverted (s'.pins n)) else p }

/-! ## Clocks -/

/-- A clock block sees the level of its source, and whether its output falls (R459, R460). An edge is a difference from
the level it saw last, be it of an earlier source, which is the model's choice (log 18). -/
def ClockBlock.see (c : ClockBlock) (lvl : Bool) : ClockBlock × Bool :=
  let fell := c.srcLevel && !lvl
  let c' := { c with srcLevel := lvl }
  if !c.running || !c.inuse then (c', false)
  else if c.div = 0#8 then ({ c' with level := lvl }, c.level && !lvl)
  else if !fell then (c', false)
  else if c.count + 1 < c.div.toNat then ({ c' with count := c.count + 1 }, false)
  else ({ c' with count := 0, level := !c.level }, c.level)

/-- The port is clocked by clock block k. -/
def clockedBy (pl : Platform) (k : Nat) (p : Port) : Bool := p.clk != pl.refClkId && p.clk = plainId 6 k

/-- The clock blocks whose source is the reference clock see its level; the answer names those whose output falls. -/
def State.refClocks (s : State) : State × List Nat :=
  let seen := s.clks.map fun c => if c.source = s.plat.refClkId then c.see s.refLevel else (c, false)
  ({ s with clks := seen.map Prod.fst },
   (List.range seen.length).filter fun k => (seen.getD k (ClockBlock.blank 0#32, false)).2)

/-- The reference clock changes its level (R454, R459): its falling edge advances the time that timers read, and steps
the ports on it and on the clock blocks whose output it makes fall. -/
def State.refEdge (s : State) : State :=
  let falls := s.refLevel
  let s := { s with refLevel := !s.refLevel, reftime := if falls then s.reftime + 1#32 else s.reftime }
  let r := s.refClocks
  r.1.cyclePorts fun p => (falls && p.clk = s.plat.refClkId) || r.2.any fun k => clockedBy s.plat k p

/-- Clock block k looks at the pin of its source port (R459), and steps its ports where its output falls. -/
def State.clockLook (s : State) (k : Nat) : State :=
  let c := s.clk k
  if c.source = s.plat.refClkId then s
  else match s.lookup c.source with
    | some (.port q) =>
      let r := c.see ((s.pins q).getLsbD 0)
      let s' := s.updClk k fun _ => r.1
      if r.2 then s'.cyclePorts (clockedBy s.plat k) else s'
    | _ => s

/-! ## Tokens -/

/-- The control token END (R401). -/
def endToken : Token := ⟨true, 1#8⟩
/-- The control token PAUSE (R401). -/
def pauseToken : Token := ⟨true, 2#8⟩

/-- The token is one of the hardware control tokens, which never reach a channel end (R401, R402). -/
def Token.isHardware (t : Token) : Bool := t.control && 224 ≤ t.value.toNat

/-- The destination is outside this XCore (R408): a configuration resource, or a channel end of another XCore. -/
def outside (pl : Platform) (d : Word) : Bool :=
  resType d = 12 || (resType d = 2 && resSpecific d != chanSpecific pl)

/-- A token arrives at channel end d from `o` (R405, R408): PAUSE only ends the message, any other token is appended and
END releases the route. Nothing happens where the route is another's, the channel end is not in use or has no room. -/
def Chanend.accept (pl : Platform) (d : Chanend) (o : Owner) (t : Token) : Option Chanend :=
  if d.inuse && (d.owner = none || d.owner = some o) then
    if t = pauseToken then some { d with owner := none }
    else if d.inbuf.length < pl.chanBuf then
      some { d with inbuf := d.inbuf ++ [t], owner := if t = endToken then none else some o }
    else none
  else none

/-- The head of a channel end's flight queue is gone. -/
def Chanend.dropHead (c : Chanend) : Chanend := { c with flight := c.flight.tail }

/-- The interconnect delivers the head token of channel end c (R405). -/
def State.deliver (s : State) (c : Nat) : State :=
  match (s.chan c).flight with
  | [] => s
  | (d, t) :: _ =>
    match s.lookup d with
    | some (.chan n) =>
      match (s.chan n).accept s.plat (.chan c) t with
      | some e => (s.updChan n fun _ => e).updChan c Chanend.dropHead
      | none => s
    | _ => s

/-- The environment takes the head token of channel end c where its destination is outside (R408). -/
def State.envTake (s : State) (c : Nat) : State :=
  match (s.chan c).flight with
  | [] => s
  | (d, _) :: _ => if outside s.plat d then s.updChan c Chanend.dropHead else s

/-- The environment sends a token to channel end c (R408); hardware tokens never reach one (R402). -/
def State.envToken (s : State) (c : Nat) (t : Token) : State :=
  if t.isHardware then s
  else match (s.chan c).accept s.plat .env t with
    | some e => s.updChan c fun _ => e
    | none => s

/-- The environment changes the value it puts on the pins of port n (R469). -/
def State.envPins (s : State) (n : Nat) (v : Word) : State :=
  s.updPort n fun p => { p with ext := lowBits v p.width }

/-- The debug host requests debug entry (R591); a request that is pending stays. -/
def State.debugRequest (s : State) (cause : Word) : State :=
  { s with dbg := { s.dbg with request := some (s.dbg.request.getD cause) } }

/-! ## Which thread may act, and the entries that are not instructions -/

/-- Thread t is in use, paused at no synchroniser, and not frozen by debug mode (R57, R85, R651). -/
def State.canAct (s : State) (t : Nat) : Bool :=
  (s.thr t).inuse && !s.spaused.contains t && !s.mpaused.contains t && (!s.dbg.indbg || t = 0)

/-- runnable (R57): thread t can issue an instruction. -/
def State.runnable (s : State) (t : Nat) : Bool := s.canAct t && !(s.thr t).sr.waiting

/-- Thread t can be resumed at any time (R63): it is paused on a resource. A thread that waits for an event goes on by an
entry alone (R540; log 44). -/
def State.resumable (s : State) (t : Nat) : Bool := s.canAct t && (s.thr t).sr.waiting && !(s.thr t).evwait

/-- A pending external debug request is served now (R592, R651). -/
def State.debugDue (s : State) : Bool := s.dbg.request.isSome && !s.dbg.indbg && s.debugCanEnter

/-- Debug entry for the pending request (R592). -/
def State.serveDebug (s : State) : State :=
  ({ s with dbg := { s.dbg with request := none } }).debugEnter (s.dbg.request.getD 0#32)

/-- The resource requests thread t, in the given mode (R54, R651). -/
def State.requests (s : State) (t : Nat) (m : IeMode) (r : ResRef) : Bool :=
  (s.es r).thread = t && (s.es r).enb && (s.es r).iemode = m && s.refInuse r && s.ready r

/-- Event entry is open (R651 b). -/
def State.eventOpen (s : State) (t : Nat) (r : ResRef) : Bool :=
  s.canAct t && (s.thr t).sr.eeble && s.requests t .event r

/-- Interrupt entry is open (R651 a). -/
def State.interruptOpen (s : State) (t : Nat) (r : ResRef) : Bool :=
  s.canAct t && (s.thr t).sr.ieble && s.requests t .interrupt r

/-- Event entry (R655). -/
def State.eventEnter (s : State) (t : Nat) (r : ResRef) : State :=
  ((s.detach t).updThr t fun th => { th with ed := (s.es r).ev, sr := th.sr.eventEntry }).jumpThr t (s.es r).v

/-- Interrupt entry (R657). -/
def State.interruptEnter (s : State) (t : Nat) (r : ResRef) : State :=
  ((s.detach t).updThr t fun th =>
    { th with spc := th.pc, ssr := th.sr.toWord, sed := th.ed, ed := (s.es r).ev,
              sr := th.sr.interruptEntry }).jumpThr t (s.es r).v

/-- The members of a list, the least recently used first: those that `used` does not name, then the others in its order,
the latest last. -/
def leastRecent {α : Type} [BEq α] (all used : List α) : List α :=
  (all.filter fun a => !used.contains a) ++ used.filter all.contains

/-- An element used: it is the latest now. -/
def useNow {α : Type} [BEq α] (a : α) (used : List α) : List α := (used.filter fun b => b != a) ++ [a]

/-- The fixed schedule delivers from channel end c and notes that it did (R406; log 14). -/
def State.deliverNext (s : State) (c : Nat) : State :=
  let t := s.deliver c
  if (t.chan c).flight.length = (s.chan c).flight.length then t else { t with served := useNow c t.served }

/-- Every resource that can cause an event or an interrupt (R685). -/
def State.allRefs (s : State) : List ResRef :=
  (List.range s.ports.length).map ResRef.port ++ (List.range s.timers.length).map ResRef.timer ++
    (List.range s.chans.length).map ResRef.chan

/-- The agents besides the threads act once: the reference clock, the port-sourced clocks, the interconnect and the
environment's receivers. Of several channel ends with a token for one destination the one that has waited longest since
it last delivered goes first, which is the round robin of R406 (log 14). -/
def State.agentsRound (s : State) : State :=
  let s := s.refEdge
  let s := (List.range s.clks.length).foldl State.clockLook s
  let s := (leastRecent (List.range s.chans.length) s.served).foldl State.deliverNext s
  (List.range s.chans.length).foldl State.envTake s

end Sys2Proof.Machine
end

