-- ==== Sys2Proof/Machine/Branch.lean ====
section
/-! DEFINITION. The branches, calls and returns (spec/42_branch_call.md). No branch checks its target: an illegal pc is found when
it is dispatched (R333). -/
namespace Sys2Proof.Machine

/-- A relative branch that is taken when a condition holds (R311 to R314). -/
def branchIf (c : Bool) (target : Word) (s : State) : Result := .next (if c then s.jump target else s)

/-- A call (R310): lr <- pc, pc <- target. -/
def call (target : Word) (s : State) : Result := .next ((s.setX lr s.pcNext).jump target)

/-- BRFT (R311). -/
def execBrft (c : Reg) (u16 : BitVec 16) (s : State) : Result :=
  branchIf (s.x c != 0#32) (halfAt s.pcNext (immWord u16)) s

/-- BRFF (R312). -/
def execBrff (c : Reg) (u16 : BitVec 16) (s : State) : Result :=
  branchIf (s.x c == 0#32) (halfAt s.pcNext (immWord u16)) s

/-- BRBT (R313). -/
def execBrbt (c : Reg) (u16 : BitVec 16) (s : State) : Result :=
  branchIf (s.x c != 0#32) (halfBack s.pcNext (immWord u16)) s

/-- BRBF (R314). -/
def execBrbf (c : Reg) (u16 : BitVec 16) (s : State) : Result :=
  branchIf (s.x c == 0#32) (halfBack s.pcNext (immWord u16)) s

/-- BRFU (R315). -/
def execBrfu (u16 : BitVec 16) (s : State) : Result :=
  .next (s.jump (halfAt s.pcNext (immWord u16)))

/-- BRBU (R316). -/
def execBrbu (u16 : BitVec 16) (s : State) : Result :=
  .next (s.jump (halfBack s.pcNext (immWord u16)))

/-- BRU (R317); doubling mod 2^32 makes the signed and the unsigned reading of s agree. -/
def execBru (src : Reg) (s : State) : Result :=
  .next (s.jump (halfAt s.pcNext (s.x src)))

/-- BAU (R318). -/
def execBau (src : Reg) (s : State) : Result :=
  .next (s.jump (s.x src))

/-- BLRF (R319). -/
def execBlrf (u20 : BitVec 20) (s : State) : Result :=
  call (halfAt s.pcNext (immWord u20)) s

/-- BLRB (R320). -/
def execBlrb (u20 : BitVec 20) (s : State) : Result :=
  call (halfBack s.pcNext (immWord u20)) s

/-- BLA (R321). -/
def execBla (src : Reg) (s : State) : Result :=
  call (s.x src) s

/-- BLACP (R322). -/
def execBlacp (u20 : BitVec 20) (s : State) : Result :=
  loadThen (wordAt (s.x cp) (immWord u20)) call s

/-- BLAT (R323). -/
def execBlat (u16 : BitVec 16) (s : State) : Result :=
  loadThen (wordAt (s.x r11) (immWord u16)) call s

/-- ENTSP (R324): with u16 = 0 nothing happens. -/
def execEntsp (u16 : BitVec 16) (s : State) : Result :=
  if u16 = 0#16 then .next s
  else if writable s.plat (s.x sp) 4 then
    .next ((s.memWrite (s.x sp) 4 (s.x lr)).setX sp (wordBack (s.x sp) (immWord u16)))
  else raised .loadStore (s.x sp) s

/-- RETSP (R325): the load is checked before anything is written. -/
def execRetsp (u16 : BitVec 16) (s : State) : Result :=
  if u16 = 0#16 then .next (s.jump (s.x lr))
  else
    let a := wordAt (s.x sp) (immWord u16)
    loadThen a (fun t s => .next (((s.setX sp a).setX lr t).jump t)) s

/-- EXTSP (R326). -/
def execExtsp (u16 : BitVec 16) (s : State) : Result :=
  writeReg sp (wordBack (s.x sp) (immWord u16)) s

/-- EXTDP (R327). -/
def execExtdp (u16 : BitVec 16) (s : State) : Result :=
  writeReg dp (wordBack (s.x dp) (immWord u16)) s

/-- SETSP (R328). -/
def execSetsp (src : Reg) (s : State) : Result :=
  writeReg sp (s.x src) s

/-- SETDP (R329). -/
def execSetdp (src : Reg) (s : State) : Result :=
  writeReg dp (s.x src) s

/-- SETCP (R330). -/
def execSetcp (src : Reg) (s : State) : Result :=
  writeReg cp (s.x src) s

end Sys2Proof.Machine
end

