-- ==== Sys2Proof/Machine/PortOps.lean ====
section
/-! DEFINITION. Output to and input from a port (R470, R471, R479 of spec/45_timers_clocks_ports.md), which IN, OUT,
OUTSHR, INSHR, OUTPW and INPW share. -/
namespace Sys2Proof.Machine

/-- A shift count is valid for a port (R489). -/
def Port.validCount (p : Port) (n : Nat) : Bool := 0 < n && n ≤ p.trwidth && n % p.width = 0

/-- A transfer width is legal for a port (R488). -/
def Port.legalWidth (p : Port) (n : Nat) : Bool :=
  [1, 4, 8, 32].contains n && p.width ≤ n && n % p.width = 0

/-- A port that inputs turns to output (R470, R479); what it had sampled is discarded (log 21). -/
def Port.turnOut (p : Port) : Port :=
  if p.direction = .input then { p with direction := .output, trfull := false, sfill := 0 } else p

/-- The transfer register is filled by an output instruction (R470). -/
def Port.fill (v : Word) (p : Port) : Port := { p.turnOut with transfer := lowBits v p.trwidth, trfull := true }

/-- Output v to port n, whose identifier is r (R470, R479): pause while the transfer register holds output, raise on a
BUFFERED port that has input since START, else fill the transfer register; `f` and `k` are what the instruction does
besides on completion, to the port and to the state. -/
def outPort (r : Word) (n : Nat) (v : Word) (f : Port → Port) (k : State → State) (s : State) : Result :=
  let p := s.port n
  if p.direction = .output && p.trfull then pauseOnPort n s
  else if p.direction = .input && p.modes.bufmode = .buffered && p.inputting then badResource r s
  else .next (k (s.updPort n fun p => f (p.fill v)))

/-- The transfer register is emptied by an input instruction (R471). -/
def Port.take (p : Port) : Port := { p with trfull := false, inputting := true, pw := none }

/-- Input from port n, whose identifier is r, after the port change `f` that takes effect at issue (R471, R479,
R492): raise on a BUFFERED port that outputs, pause until output has left, then until data is there; `k` receives
the data. -/
def inPort (r : Word) (n : Nat) (f : Port → Port) (k : Word → State → State) (s : State) : Result :=
  let p := s.port n
  if p.direction = .output && p.modes.bufmode = .buffered then badResource r s
  else if p.direction = .output && p.trfull then pauseOnPort n (s.updPort n f)
  else if p.direction = .output || !p.trfull then
    pauseOnPort n (s.updPort n fun p => { f p with direction := .input })
  else .next (k (lowBits p.transfer p.trwidth) (s.updPort n fun p => (f p).take))

end Sys2Proof.Machine
end

