-- ==== Sys2Proof/Machine/Channels.lean ====
section
/-! DEFINITION. The channel and lock instructions, and IN, OUT, SETD and GETD on every resource
(spec/44_communication_locks.md; R457, R470, R471 of spec/45_timers_clocks_ports.md). -/
namespace Sys2Proof.Machine

/-- SETD (R420). That the divider of a clock block keeps its count of edges is the model's choice (log 18). -/
def execSetd (r src : Reg) (s : State) : Result :=
  let v := s.x src
  match s.live (s.x r) with
  | some (.port n) => .next (s.updPort n fun p => { p with data := v })
  | some (.timer n) => .next (s.updTimer n fun t => { t with data := v })
  | some (.chan n) =>
    if resType v = 2 || resType v = 12 then .next (s.updChan n fun c => { c with dest := v, destset := true })
    else badResource (s.x r) s
  | some (.clk n) =>
    if (s.clk n).running then badResource (s.x r) s
    else .next (s.updClk n fun c => { c with div := v.setWidth 8 })
  | _ => badResource (s.x r) s

/-- GETD (R421). -/
def execGetd (d r : Reg) (s : State) : Result :=
  match s.live (s.x r) with
  | some (.port n) => writeReg d (s.port n).data s
  | some (.timer n) => writeReg d (s.timer n).data s
  | some (.chan n) => writeReg d (s.chan n).dest s
  | some (.clk n) => writeReg d ((s.clk n).div.setWidth 32) s
  | _ => badResource (s.x r) s

/-- SETN (R422). -/
def execSetn (r src : Reg) (s : State) : Result :=
  withChan (s.x r) (fun n s => .next (s.updChan n fun c => { c with net := s.x src })) s

/-- GETN (R423). -/
def execGetn (d r : Reg) (s : State) : Result :=
  withChan (s.x r) (fun n s => writeReg d (s.chan n).net s) s

/-- dtoken(v) (R410). -/
def dtoken (v : Word) : Token := ⟨false, v.setWidth 8⟩

/-- ctoken(v) (R410). -/
def ctoken (v : Word) : Token := ⟨true, v.setWidth 8⟩

/-- The token closes the route (R407). -/
def Token.closes (t : Token) : Bool := t = endToken || t = pauseToken

/-- A channel end after it has output tokens (R407): the route is opened by the first and closed by END or PAUSE. -/
def Chanend.send (c : Chanend) (ts : List Token) : Chanend :=
  let via := if c.route then c.routedest else c.dest
  { c with routedest := via, route := !ts.any Token.closes, flight := c.flight ++ ts.map fun t => (via, t) }

/-- Output tokens on channel end n, or pause where there is no room for all of them (R407). -/
def sendTokens (n : Nat) (ts : List Token) (s : State) : Result :=
  if (s.chan n).flight.length + ts.length ≤ s.plat.flightCap then .next (s.updChan n fun c => c.send ts)
  else pauseOnChanOut n s

/-- Continue where the destination of channel end n is set, or raise (R411). -/
def withDest (r : Word) (n : Nat) (k : State → Result) (s : State) : Result :=
  if (s.chan n).destset then k s else raised .linkError r s

/-- The checks of an output instruction on a channel end (R411). -/
def withOutChan (r : Word) (k : Nat → State → Result) (s : State) : Result :=
  withChan r (fun n s => withDest r n (k n) s) s

/-- The exception a privileged control token raises for the executing thread, if any (R413). -/
def State.privTrapOf (s : State) (t : Token) : Option ExcType :=
  if t.control && 192 ≤ t.value.toNat && t.value.toNat ≤ 223 && !s.cur.sr.ink then s.plat.privTrap else none

/-- Continue unless a privileged control token traps (R413). -/
def unlessPrivileged (r : Word) (t : Token) (k : State → Result) (s : State) : Result :=
  match s.privTrapOf t with
  | some e => raised e r s
  | none => k s

/-- The token raises ET_ILLEGAL_RESOURCE before the destination is looked at (R680), on a platform that follows R680
rather than R411 (log 49). -/
def State.valueTraps (s : State) (t : Token) : Bool :=
  s.plat.valueFirst && s.privTrapOf t = some .illegalResource

/-- Output a control token (R425). -/
def outControl (r : Word) (t : Token) (s : State) : Result :=
  withChan r (fun n s =>
    if s.valueTraps t then badResource r s
    else withDest r n (fun s =>
      if t.isHardware then raised .linkError r s else unlessPrivileged r t (sendTokens n [t]) s) s) s

/-- OUTT (R424). -/
def execOutt (r src : Reg) (s : State) : Result :=
  withOutChan (s.x r) (fun n s => sendTokens n [dtoken (s.x src)] s) s

/-- OUTCT (R425). -/
def execOutct (r src : Reg) (s : State) : Result :=
  outControl (s.x r) (ctoken (s.x src)) s

/-- OUTCTI (R426). -/
def execOutcti (r : Reg) (us : Us) (s : State) : Result :=
  outControl (s.x r) (ctoken (usWord us)) s

/-- The four data tokens of a word, the most significant byte first (R431). -/
def wordTokens (v : Word) : List Token := [dtoken (v >>> 24), dtoken (v >>> 16), dtoken (v >>> 8), dtoken v]

/-- OUT on a lock (R442): it is freed, and the head of its queue resumes. -/
def outLock (n : Nat) (s : State) : Result :=
  let s' := s.updLock n fun l => { l with held := false, owner := none }
  match (s.lock n).queue with
  | [] => .next s'
  | t :: _ => .next (s'.resumeThr t)

/-- OUT (R431, R442, R470). -/
def execOut (r src : Reg) (s : State) : Result :=
  match s.live (s.x r) with
  | some (.chan _) => withOutChan (s.x r) (fun n s => sendTokens n (wordTokens (s.x src)) s) s
  | some (.lock n) => outLock n s
  | some (.port n) => outPort (s.x r) n (s.x src) id id s
  | _ => badResource (s.x r) s

/-- A channel end after its head token was taken (R427, R428). -/
def Chanend.takeOne (c : Chanend) : Chanend :=
  { c with inbuf := c.inbuf.tail, inmsg := c.inbuf.head? != some endToken }

/-- Continue with the head token of a channel end in use, or pause until there is one (R427). -/
def withHead (r : Word) (k : Nat → Token → State → Result) (s : State) : Result :=
  withChan r (fun n s =>
    match (s.chan n).inbuf with
    | [] => pauseOnChanIn n s
    | t :: _ => k n t s) s

/-- A token's value in a register. -/
def Token.word (t : Token) : Word := t.value.setWidth 32

/-- INT (R427). -/
def execInt (d r : Reg) (s : State) : Result :=
  withHead (s.x r) (fun n t s =>
    if t.control then badResource (s.x r) s else writeReg d t.word (s.updChan n Chanend.takeOne)) s

/-- INCT (R428). -/
def execInct (d r : Reg) (s : State) : Result :=
  withHead (s.x r) (fun n t s =>
    if t.control then unlessPrivileged (s.x r) t (fun s => writeReg d t.word (s.updChan n Chanend.takeOne)) s
    else badResource (s.x r) s) s

/-- Check for a control token of the given value and discard it (R429). -/
def checkToken (r v : Word) (s : State) : Result :=
  withHead r (fun n t s =>
    if t.control && t.word = v then unlessPrivileged r t (fun s => .next (s.updChan n Chanend.takeOne)) s
    else badResource r s) s

/-- CHKCT (R429). -/
def execChkct (r src : Reg) (s : State) : Result :=
  checkToken (s.x r) (s.x src) s

/-- CHKCTI (R430). -/
def execChkcti (r : Reg) (us : Us) (s : State) : Result :=
  checkToken (s.x r) (usWord us) s

/-- The first word's tokens of a channel end's buffer (R410). -/
def Chanend.firstWord (c : Chanend) : List Token := c.inbuf.take 4

/-- containsctoken(c) (R410). -/
def Chanend.containsControl (c : Chanend) : Bool := c.firstWord.any Token.control

/-- The word of four data tokens, the first the most significant (R432). -/
def tokensWord (ts : List Token) : Word := word (ts.foldl (fun n t => n * 256 + t.value.toNat) 0)

/-- IN on a channel end (R432). -/
def inChan (d : Reg) (r : Word) (n : Nat) (s : State) : Result :=
  let c := s.chan n
  if c.containsControl then badResource r s
  else if c.inbuf.length < 4 then pauseOnChanIn n s
  else writeReg d (tokensWord c.firstWord) (s.updChan n fun c => { c with inbuf := c.inbuf.drop 4, inmsg := true })

/-- IN on a lock (R441). -/
def inLock (d : Reg) (r : Word) (n : Nat) (s : State) : Result :=
  let l := s.lock n
  if !l.held && (l.queue.isEmpty || l.queue.head? = some s.tid) then
    writeReg d r (s.updLock n fun l => { l with held := true, owner := some s.tid, queue := l.queue.tail })
  else if l.queue.contains s.tid then paused s
  else paused (s.updLock n fun l => { l with queue := l.queue ++ [s.tid] })

/-- IN on a timer (R457). -/
def inTimer (d : Reg) (n : Nat) (s : State) : Result :=
  if s.timerReady n then writeReg d s.reftime s else pauseOnTimer n s

/-- IN (R432, R441, R457, R471). -/
def execIn (d r : Reg) (s : State) : Result :=
  match s.live (s.x r) with
  | some (.chan n) => inChan d (s.x r) n s
  | some (.lock n) => inLock d (s.x r) n s
  | some (.timer n) => inTimer d n s
  | some (.port n) => inPort (s.x r) n id (fun v s => s.setX d v) s
  | _ => badResource (s.x r) s

/-- TESTCT (R433). -/
def execTestct (d r : Reg) (s : State) : Result :=
  withHead (s.x r) (fun _ t s => writeReg d (boolWord t.control) s) s

/-- ctpos(c) (R410): the position, from 1, of the first control token of the first word. -/
def Chanend.controlPos (c : Chanend) : Nat := c.firstWord.findIdx Token.control + 1

/-- TESTWCT (R434). -/
def execTestwct (d r : Reg) (s : State) : Result :=
  withChan (s.x r) (fun n s =>
    let c := s.chan n
    if c.containsControl then writeReg d (word c.controlPos) s
    else if 4 ≤ c.inbuf.length then writeReg d 0#32 s
    else pauseOnChanIn n s) s

/-- TESTLCL (R435). -/
def execTestlcl (d r : Reg) (s : State) : Result :=
  withChan (s.x r) (fun n s =>
    let c := s.chan n
    if c.destset then writeReg d (boolWord (resSpecific c.dest == resSpecific (s.x r))) s
    else badResource (s.x r) s) s

end Sys2Proof.Machine
end

