-- ==== Sys2Proof/Machine/DataAccess.lean ====
section
/-! DEFINITION. The data access instructions (spec/40_data_access.md). -/
namespace Sys2Proof.Machine

/-- LDWSP (R202). -/
def execLdwsp (d : Reg) (u16 : BitVec 16) (s : State) : Result :=
  loadReg d (wordAt (s.x sp) (immWord u16)) 4 id s

/-- STWSP (R203). -/
def execStwsp (src : Reg) (u16 : BitVec 16) (s : State) : Result :=
  storeVal (wordAt (s.x sp) (immWord u16)) 4 (s.x src) s

/-- LDAWSP (R204). -/
def execLdawsp (d : Reg) (u16 : BitVec 16) (s : State) : Result :=
  writeReg d (wordAt (s.x sp) (immWord u16)) s

/-- LDWDP (R205). -/
def execLdwdp (d : Reg) (u16 : BitVec 16) (s : State) : Result :=
  loadReg d (wordAt (s.x dp) (immWord u16)) 4 id s

/-- STWDP (R206). -/
def execStwdp (src : Reg) (u16 : BitVec 16) (s : State) : Result :=
  storeVal (wordAt (s.x dp) (immWord u16)) 4 (s.x src) s

/-- LDAWDP (R207). -/
def execLdawdp (d : Reg) (u16 : BitVec 16) (s : State) : Result :=
  writeReg d (wordAt (s.x dp) (immWord u16)) s

/-- LDC (R208). -/
def execLdc (d : Reg) (u16 : BitVec 16) (s : State) : Result :=
  writeReg d (immWord u16) s

/-- LDWCP (R209). -/
def execLdwcp (d : Reg) (u16 : BitVec 16) (s : State) : Result :=
  loadReg d (wordAt (s.x cp) (immWord u16)) 4 id s

/-- LDAWCP (R210). -/
def execLdawcp (u16 : BitVec 16) (s : State) : Result :=
  writeReg r11 (wordAt (s.x cp) (immWord u16)) s

/-- LDWCPL (R211). -/
def execLdwcpl (u20 : BitVec 20) (s : State) : Result :=
  loadReg r11 (wordAt (s.x cp) (immWord u20)) 4 id s

/-- LDAPF (R212). -/
def execLdapf (u20 : BitVec 20) (s : State) : Result :=
  writeReg r11 (halfAt s.pcNext (immWord u20)) s

/-- LDAPB (R213). -/
def execLdapb (u20 : BitVec 20) (s : State) : Result :=
  writeReg r11 (halfBack s.pcNext (immWord u20)) s

/-- LDWI (R214). -/
def execLdwi (d b : Reg) (us : Us) (s : State) : Result :=
  loadReg d (wordAt (s.x b) (usWord us)) 4 id s

/-- STWI (R215). -/
def execStwi (src b : Reg) (us : Us) (s : State) : Result :=
  storeVal (wordAt (s.x b) (usWord us)) 4 (s.x src) s

/-- LDAWFI (R216). -/
def execLdawfi (d b : Reg) (us : Us) (s : State) : Result :=
  writeReg d (wordAt (s.x b) (usWord us)) s

/-- LDAWBI (R217). -/
def execLdawbi (d b : Reg) (us : Us) (s : State) : Result :=
  writeReg d (wordBack (s.x b) (usWord us)) s

/-- LDW (R218). -/
def execLdw (d b i : Reg) (s : State) : Result :=
  loadReg d (wordAt (s.x b) (s.x i)) 4 id s

/-- STW (R219). -/
def execStw (src b i : Reg) (s : State) : Result :=
  storeVal (wordAt (s.x b) (s.x i)) 4 (s.x src) s

/-- LDAWF (R220). -/
def execLdawf (d b i : Reg) (s : State) : Result :=
  writeReg d (wordAt (s.x b) (s.x i)) s

/-- LDAWB (R221). -/
def execLdawb (d b i : Reg) (s : State) : Result :=
  writeReg d (wordBack (s.x b) (s.x i)) s

/-- LD16S (R222). -/
def execLd16s (d b i : Reg) (s : State) : Result :=
  loadReg d (halfAt (s.x b) (s.x i)) 2 (fun h => signExtend h 16) s

/-- ST16 (R223). -/
def execSt16 (src b i : Reg) (s : State) : Result :=
  storeVal (halfAt (s.x b) (s.x i)) 2 (s.x src) s

/-- LDA16F (R224). -/
def execLda16f (d b i : Reg) (s : State) : Result :=
  writeReg d (halfAt (s.x b) (s.x i)) s

/-- LDA16B (R225). -/
def execLda16b (d b i : Reg) (s : State) : Result :=
  writeReg d (halfBack (s.x b) (s.x i)) s

/-- LD8U (R226). -/
def execLd8u (d b i : Reg) (s : State) : Result :=
  loadReg d (s.x b + s.x i) 1 id s

/-- ST8 (R227); the index is not scaled (C1). -/
def execSt8 (src b i : Reg) (s : State) : Result :=
  storeVal (s.x b + s.x i) 1 (s.x src) s

end Sys2Proof.Machine
end

