-- ==== Sys2Proof/Machine/Debug.lean ====
section
/-! DEFINITION. The debug and processor-state instructions (spec/47_debug.md). -/
namespace Sys2Proof.Machine

/-- DCALL (R593). Where no entry can be made, in debug mode or with thread 0 not able to take it, the spec says that a
model refuses (R592; U10 of spec/93_implementation_defined.md; log 31). -/
def execDcall (s : State) : Result :=
  if !s.dbg.indbg && s.debugCanEnter then .next (s.debugEnter s.plat.dtypeDcall)
  else .refused .debugEntryUndefined

/-- Continue in debug mode, or raise (R594 to R597). -/
def inDebug (k : State → Result) (s : State) : Result :=
  if s.dbg.indbg then k s else raised .illegalInstruction 0#32 s

/-- DRET (R594). -/
def execDret (s : State) : Result :=
  inDebug (fun s =>
    .next (({ s with dbg := { s.dbg with indbg := false } }.updThr 0 fun t =>
      { t with sr := SR.restored s.dbg.dssr }).jumpThr 0 s.dbg.dspc)) s

/-- DENTSP (R595). -/
def execDentsp (s : State) : Result :=
  inDebug (fun s => .next ({ s with dbg := { s.dbg with dssp := s.x sp } }.setX sp s.plat.ramEndSp)) s

/-- DRESTSP (R596). -/
def execDrestsp (s : State) : Result :=
  inDebug (fun s => writeReg sp s.dbg.dssp s) s

/-- A register of a thread by the numbers of R33; none above 24. -/
def Thread.byNumber (t : Thread) (n : Nat) : Option Word :=
  match n with
  | 16 => some t.pc
  | 17 => some t.sr.toWord
  | 18 => some t.spc
  | 19 => some t.ssr
  | 20 => some t.et
  | 21 => some t.ed
  | 22 => some t.sed
  | 23 => some t.kep
  | 24 => some t.ksp
  | n => if n < 16 then some (t.get (regOf n)) else none

/-- The register that dtid and dtreg select, where both are in range (R83, R597). -/
def State.debugReg (s : State) : Option Word :=
  if s.dbg.dtid.toNat < s.threads.length then (s.thr s.dbg.dtid.toNat).byNumber s.dbg.dtreg.toNat else none

/-- DGETREG (R597); out of range the value is a free value (log 12). -/
def execDgetreg (src : Reg) (s : State) : Result :=
  inDebug (fun s =>
    match s.debugReg with
    | some v => writeReg src v s
    | none => writeReg src (Config.freeWord s.free) { s with free := s.free + 1 }) s

/-- The processor-state register an identifier names (R598, R600). -/
def State.psReg (s : State) (r : Word) : Option PsReg :=
  if resType r = 11 && resSpecific r = 0 then s.plat.psRegs.find? fun q => q.number = resNum r else none

/-- A register of the platform that has no name (R600); an unlisted one reads 0 (log 10). -/
def cellOf (cells : List (Nat × Word)) (n : Nat) : Word := ((cells.find? fun e => e.1 = n).map Prod.snd).getD 0#32

/-- Read a processor-state register (R600). -/
def Debug.readPs (g : Debug) (q : PsReg) : Word :=
  match q.kind with
  | .rambase => g.rambase
  | .dspc => g.dspc
  | .dssr => g.dssr
  | .dssp => g.dssp
  | .dtype => g.dtype
  | .dtid => g.dtid
  | .dtreg => g.dtreg
  | .dbgint => g.dbgintHi ++ BitVec.ofBool g.indbg
  | .cell => cellOf g.cells q.number

/-- Write a processor-state register (R600). -/
def Debug.writePs (g : Debug) (q : PsReg) (v : Word) : Debug :=
  match q.kind with
  | .rambase => { g with rambase := v }
  | .dspc => { g with dspc := v }
  | .dssr => { g with dssr := v }
  | .dssp => { g with dssp := v }
  | .dtype => { g with dtype := v }
  | .dtid => { g with dtid := v }
  | .dtreg => { g with dtreg := v }
  | .dbgint => { g with dbgintHi := v.extractLsb' 1 31, indbg := v.getLsbD 0 }
  | .cell => { g with cells := (q.number, v) :: g.cells.filter fun e => e.1 != q.number }

/-- GETPS (R598). -/
def execGetps (d r : Reg) (s : State) : Result :=
  match s.psReg (s.x r) with
  | some q => writeReg d (s.dbg.readPs q) s
  | none => raised .illegalPs (s.x r) s

/-- SETPS may not write the value to the register (R599): a read-only register, and "the ROM address" to RAMBASE, which
the model takes to be ROM_BASE alone, its choice (log 48). -/
def psWriteBad (pl : Platform) (q : PsReg) (v : Word) : Bool :=
  q.readOnly || (q.kind = .rambase && v = word pl.romBase)

/-- SETPS (R599). -/
def execSetps (r src : Reg) (s : State) : Result :=
  match s.psReg (s.x r) with
  | some q =>
    if psWriteBad s.plat q (s.x src) then raised .illegalPs (s.x r) s
    else .next { s with dbg := s.dbg.writePs q (s.x src) }
  | none => raised .illegalPs (s.x r) s

end Sys2Proof.Machine
end

