-- ==== Sys2Proof/Machine/Events.lean ====
section
/-! DEFINITION. The status register, event, interrupt and kernel instructions (spec/46_events_kernel.md). -/
namespace Sys2Proof.Machine

/-- GETSR (R520). -/
def execGetsr (u16 : BitVec 16) (s : State) : Result :=
  writeReg r11 (s.cur.sr.toWord &&& immWord u16) s

/-- SETSR (R521). -/
def execSetsr (u16 : BitVec 16) (s : State) : Result :=
  if maskRefused (immWord u16) then .refused .srMask
  else .next (s.updCur fun t => { t with sr := t.sr.setMask (immWord u16) })

/-- CLRSR (R522). -/
def execClrsr (u16 : BitVec 16) (s : State) : Result :=
  if maskRefused (immWord u16) then .refused .srMask
  else .next (s.updCur fun t => { t with sr := t.sr.clearMask (immWord u16) })

/-- SETV (R530). -/
def execSetv (r : Reg) (s : State) : Result :=
  withEventRes (s.x r) (fun q s => .next (s.updEs q fun e => { e with v := s.x r11 })) s

/-- SETEV (R531). -/
def execSetev (r : Reg) (s : State) : Result :=
  withEventRes (s.x r) (fun q s => .next (s.updEs q fun e => { e with ev := s.x r11 })) s

/-- Enable or disable the events and interrupts of a resource, which the executing thread then owns (R532 to R535). -/
def setEnable (r : Word) (b : Bool) (s : State) : Result :=
  withEventRes r (fun q s => .next (s.updEs q fun e => { e with enb := b, thread := s.tid })) s

/-- EET (R532). -/
def execEet (d r : Reg) (s : State) : Result :=
  setEnable (s.x r) (s.x d != 0#32) s

/-- EEF (R533). -/
def execEef (d r : Reg) (s : State) : Result :=
  setEnable (s.x r) (s.x d == 0#32) s

/-- EEU (R534). -/
def execEeu (r : Reg) (s : State) : Result :=
  setEnable (s.x r) true s

/-- EDU (R535). -/
def execEdu (r : Reg) (s : State) : Result :=
  setEnable (s.x r) false s

/-- The resource no longer requests events of a thread (R536). -/
def EventState.disabledFor (tid : Nat) (e : EventState) : EventState :=
  if e.thread = tid && e.iemode = .event then { e with enb := false } else e

/-- CLRE (R536). -/
def execClre (s : State) : Result :=
  .next { s.updCur fun t => { t with sr := { t.sr with eeble := false, inenb := false } } with
    ports := s.ports.map fun p => { p with es := p.es.disabledFor s.tid }
    timers := s.timers.map fun t => { t with es := t.es.disabledFor s.tid }
    chans := s.chans.map fun c => { c with es := c.es.disabledFor s.tid } }

/-- wait_for_event (R540): events are enabled and the thread waits at this instruction. -/
def waitForEvent (s : State) : Result :=
  .next ((s.updCur fun t => { t with sr := { t.sr with eeble := true } }).await true)

/-- WAITET (R537). -/
def execWaitet (c : Reg) (s : State) : Result :=
  if s.x c = 0#32 then .next s else waitForEvent s

/-- WAITEF (R538). -/
def execWaitef (c : Reg) (s : State) : Result :=
  if s.x c = 0#32 then waitForEvent s else .next s

/-- WAITEU (R539). -/
def execWaiteu (s : State) : Result :=
  waitForEvent s

/-- ECALLT (R550). -/
def execEcallt (c : Reg) (s : State) : Result :=
  if s.x c = 0#32 then .next s else raised .ecall 0#32 s

/-- ECALLF (R551). -/
def execEcallf (c : Reg) (s : State) : Result :=
  if s.x c = 0#32 then raised .ecall 0#32 s else .next s

/-- KCALL (R552). -/
def execKcall (src : Reg) (s : State) : Result :=
  .next (s.kernelCall (s.x src))

/-- KCALLI (R553). -/
def execKcalli (u16 : BitVec 16) (s : State) : Result :=
  .next (s.kernelCall (immWord u16))

/-- KRET (R554). -/
def execKret (s : State) : Result :=
  .next s.kernelReturn

/-- The word slot at a fixed offset from sp (R559). -/
def State.slot (s : State) (k : Nat) : Word := wordAt (s.x sp) (word k)

/-- LDSPC (R560). -/
def execLdspc (s : State) : Result :=
  loadThen (s.slot 1) (fun v s => .next (s.updCur fun t => { t with spc := v })) s

/-- STSPC (R561). -/
def execStspc (s : State) : Result :=
  storeVal (s.slot 1) 4 s.cur.spc s

/-- LDSSR (R562). -/
def execLdssr (s : State) : Result :=
  loadThen (s.slot 2) (fun v s => .next (s.updCur fun t => { t with ssr := v })) s

/-- STSSR (R563). -/
def execStssr (s : State) : Result :=
  storeVal (s.slot 2) 4 s.cur.ssr s

/-- LDSED (R564). -/
def execLdsed (s : State) : Result :=
  loadThen (s.slot 3) (fun v s => .next (s.updCur fun t => { t with sed := v })) s

/-- STSED (R565). -/
def execStsed (s : State) : Result :=
  storeVal (s.slot 3) 4 s.cur.sed s

/-- LDET (R566). -/
def execLdet (s : State) : Result :=
  loadThen (s.slot 4) (fun v s => .next (s.updCur fun t => { t with et := v })) s

/-- STET (R567). -/
def execStet (s : State) : Result :=
  storeVal (s.slot 4) 4 s.cur.et s

/-- GETET (R568). -/
def execGetet (s : State) : Result :=
  writeReg r11 s.cur.et s

/-- GETED (R569). -/
def execGeted (s : State) : Result :=
  writeReg r11 s.cur.ed s

/-- KENTSP (R570). -/
def execKentsp (u16 : BitVec 16) (s : State) : Result :=
  let k := s.cur.ksp
  if writable s.plat k 4 then .next ((s.memWrite k 4 (s.x sp)).setX sp (wordBack k (immWord u16)))
  else raised .loadStore k s

/-- KRESTSP (R571): the load is checked before anything is written. -/
def execKrestsp (u16 : BitVec 16) (s : State) : Result :=
  let a := wordAt (s.x sp) (immWord u16)
  loadThen a (fun v s => .next ((s.updCur fun t => { t with ksp := a }).setX sp v)) s

/-- SETKEP (R575). -/
def execSetkep (s : State) : Result :=
  .next (s.updCur fun t => { t with kep := s.x r11 })

/-- GETKEP (R576). -/
def execGetkep (s : State) : Result :=
  writeReg r11 s.cur.kep s

/-- GETKSP (R577). -/
def execGetksp (s : State) : Result :=
  writeReg r11 s.cur.ksp s

end Sys2Proof.Machine
end

