-- ==== Sys2Proof/Machine/Expression.lean ====
section
/-! DEFINITION. The expression evaluation instructions (spec/41_expression.md). -/
namespace Sys2Proof.Machine

/-- Shift left (R275): a distance of 32 or more gives 0. -/
def shiftLeft (x : Word) (n : Nat) : Word := if n < 32 then x <<< n else 0#32

/-- Shift right (R277). -/
def shiftRight (x : Word) (n : Nat) : Word := if n < 32 then x >>> n else 0#32

/-- Arithmetic shift right (R279): a distance of 32 or more gives the sign fill. -/
def arithRight (x : Word) (n : Nat) : Word := x.sshiftRight (min n 31)

/-- Signed division cannot deliver a result (R282, R284). -/
def divsTraps (x y : Word) : Bool := y = 0#32 || (x = 0x80000000#32 && y = 0xFFFFFFFF#32)

/-- A word from an integer, mod 2^32 (R13). -/
def wordOfInt (i : Int) : Word := BitVec.ofInt 32 i

/-- The bits of a word in reverse order (R292). -/
def bitReverse (w : Word) : Word := word ((List.range 32).foldl (fun n i => n * 2 + (w.getLsbD i).toNat) 0)

/-- The bytes of a word in reverse order (R293). -/
def byteReverse (w : Word) : Word := word (bits w 0 8 * 2 ^ 24 + bits w 8 8 * 2 ^ 16 + bits w 16 8 * 2 ^ 8 + bits w 24 8)

/-- The number of leading zero bits (R294). -/
def leadingZeros (w : Word) : Nat := if w = 0#32 then 32 else 31 - Nat.log2 w.toNat

/-- ADD (R261). -/
def execAdd (d x y : Reg) (s : State) : Result :=
  writeReg d (s.x x + s.x y) s

/-- ADDI (R262). -/
def execAddi (d x : Reg) (us : Us) (s : State) : Result :=
  writeReg d (s.x x + usWord us) s

/-- SUB (R263). -/
def execSub (d x y : Reg) (s : State) : Result :=
  writeReg d (s.x x - s.x y) s

/-- SUBI (R264). -/
def execSubi (d x : Reg) (us : Us) (s : State) : Result :=
  writeReg d (s.x x - usWord us) s

/-- NEG (R265). -/
def execNeg (d src : Reg) (s : State) : Result :=
  writeReg d (-(s.x src)) s

/-- EQ (R266). -/
def execEq (c x y : Reg) (s : State) : Result :=
  writeReg c (boolWord (s.x x == s.x y)) s

/-- EQI (R267). -/
def execEqi (c x : Reg) (us : Us) (s : State) : Result :=
  writeReg c (boolWord (s.x x == usWord us)) s

/-- LSS (R268). -/
def execLss (c x y : Reg) (s : State) : Result :=
  writeReg c (boolWord ((s.x x).slt (s.x y))) s

/-- LSU (R269). -/
def execLsu (c x y : Reg) (s : State) : Result :=
  writeReg c (boolWord ((s.x x).ult (s.x y))) s

/-- AND (R270). -/
def execAnd (d x y : Reg) (s : State) : Result :=
  writeReg d (s.x x &&& s.x y) s

/-- OR (R271). -/
def execOr (d x y : Reg) (s : State) : Result :=
  writeReg d (s.x x ||| s.x y) s

/-- XOR (R272). -/
def execXor (d x y : Reg) (s : State) : Result :=
  writeReg d (s.x x ^^^ s.x y) s

/-- NOT (R273). -/
def execNot (d src : Reg) (s : State) : Result :=
  writeReg d (~~~(s.x src)) s

/-- ANDNOT (R274). -/
def execAndnot (d src : Reg) (s : State) : Result :=
  writeReg d (s.x d &&& ~~~(s.x src)) s

/-- SHL (R275). -/
def execShl (d x y : Reg) (s : State) : Result :=
  writeReg d (shiftLeft (s.x x) (s.x y).toNat) s

/-- SHLI (R276). -/
def execShli (d x : Reg) (b : Us) (s : State) : Result :=
  writeReg d (shiftLeft (s.x x) (bitp b)) s

/-- SHR (R277). -/
def execShr (d x y : Reg) (s : State) : Result :=
  writeReg d (shiftRight (s.x x) (s.x y).toNat) s

/-- SHRI (R278). -/
def execShri (d x : Reg) (b : Us) (s : State) : Result :=
  writeReg d (shiftRight (s.x x) (bitp b)) s

/-- ASHR (R279). -/
def execAshr (d x y : Reg) (s : State) : Result :=
  writeReg d (arithRight (s.x x) (s.x y).toNat) s

/-- ASHRI (R280). -/
def execAshri (d x : Reg) (b : Us) (s : State) : Result :=
  writeReg d (arithRight (s.x x) (bitp b)) s

/-- MUL (R281). -/
def execMul (d x y : Reg) (s : State) : Result :=
  writeReg d (s.x x * s.x y) s

/-- DIVS (R282). -/
def execDivs (d x y : Reg) (s : State) : Result :=
  if divsTraps (s.x x) (s.x y) then raised .arithmetic 0#32 s
  else writeReg d (wordOfInt ((s.x x).toInt.tdiv (s.x y).toInt)) s

/-- DIVU (R283). -/
def execDivu (d x y : Reg) (s : State) : Result :=
  if s.x y = 0#32 then raised .arithmetic 0#32 s else writeReg d (s.x x / s.x y) s

/-- REMS (R284). -/
def execRems (d x y : Reg) (s : State) : Result :=
  if divsTraps (s.x x) (s.x y) then raised .arithmetic 0#32 s
  else writeReg d (wordOfInt ((s.x x).toInt.tmod (s.x y).toInt)) s

/-- REMU (R285). -/
def execRemu (d x y : Reg) (s : State) : Result :=
  if s.x y = 0#32 then raised .arithmetic 0#32 s else writeReg d (s.x x % s.x y) s

/-- MKMSK (R286). -/
def execMkmsk (d src : Reg) (s : State) : Result :=
  writeReg d (maskWord (s.x src).toNat) s

/-- MKMSKI (R287). -/
def execMkmski (d : Reg) (b : Us) (s : State) : Result :=
  writeReg d (maskWord (bitp b)) s

/-- SEXT (R288). -/
def execSext (d src : Reg) (s : State) : Result :=
  writeReg d (signExtend (s.x d) (s.x src).toNat) s

/-- SEXTI (R289). -/
def execSexti (d : Reg) (b : Us) (s : State) : Result :=
  writeReg d (signExtend (s.x d) (bitp b)) s

/-- ZEXT (R290). -/
def execZext (d src : Reg) (s : State) : Result :=
  writeReg d (zeroExtend (s.x d) (s.x src).toNat) s

/-- ZEXTI (R291). -/
def execZexti (d : Reg) (b : Us) (s : State) : Result :=
  writeReg d (zeroExtend (s.x d) (bitp b)) s

/-- BITREV (R292). -/
def execBitrev (d src : Reg) (s : State) : Result :=
  writeReg d (bitReverse (s.x src)) s

/-- BYTEREV (R293). -/
def execByterev (d src : Reg) (s : State) : Result :=
  writeReg d (byteReverse (s.x src)) s

/-- CLZ (R294). -/
def execClz (d src : Reg) (s : State) : Result :=
  writeReg d (word (leadingZeros (s.x src))) s

end Sys2Proof.Machine
end

