-- ==== Sys2Proof/Machine/Ports.lean ====
section
/-! DEFINITION. The instructions on timers, clock blocks and ports (spec/45_timers_clocks_ports.md). -/
namespace Sys2Proof.Machine

/-- The identifier names a 1-bit port of this XCore. -/
def State.oneBitPort (s : State) (v : Word) : Bool :=
  match s.lookup v with
  | some (.port q) => (s.port q).width = 1
  | _ => false

/-- The identifier names a port of this XCore. -/
def State.isPort (s : State) (v : Word) : Bool :=
  match s.lookup v with
  | some (.port _) => true
  | _ => false

/-- The identifier names the reference clock or a clock block of this XCore (R461). -/
def State.isClock (s : State) (v : Word) : Bool :=
  v = s.plat.refClkId || match s.lookup v with
    | some (.clk _) => true
    | _ => false

/-- SETCLK (R461). What it checks of its second operand, and that a clock block cannot be clocked from another clock
block, is the model's choice (log 33); so is that a new source leaves the level last seen
and the count of the divider as they are (log 18). -/
def execSetclk (r src : Reg) (s : State) : Result :=
  let v := s.x src
  match s.live (s.x r) with
  | some (.port n) => if s.isClock v then .next (s.updPort n fun p => { p with clk := v }) else badResource (s.x r) s
  | some (.clk n) =>
    if !(s.clk n).running && (v = s.plat.refClkId || s.oneBitPort v) then
      .next (s.updClk n fun c => { c with source := v })
    else badResource (s.x r) s
  | _ => badResource (s.x r) s

/-- SETRDY (R464; log 33). -/
def execSetrdy (r src : Reg) (s : State) : Result :=
  let v := s.x src
  match s.live (s.x r) with
  | some (.clk n) =>
    if s.oneBitPort v then .next (s.updClk n fun c => { c with rdysrc := some v }) else badResource (s.x r) s
  | some (.port n) =>
    if s.isPort v then .next (s.updPort n fun p => { p with rdyport := some v }) else badResource (s.x r) s
  | _ => badResource (s.x r) s

/-- OUTSHR (R476). -/
def execOutshr (r d : Reg) (s : State) : Result :=
  withPort (s.x r) (fun n s =>
    let w := (s.port n).trwidth
    outPort (s.x r) n (s.x d) id (fun t => t.setX d (s.x d >>> w)) s) s

/-- INSHR (R477). -/
def execInshr (d r : Reg) (s : State) : Result :=
  withPort (s.x r) (fun n s =>
    let w := (s.port n).trwidth
    inPort (s.x r) n id (fun v t => t.setX d ((v <<< (32 - w)) ||| (s.x d >>> w))) s) s

/-- PEEK (R478). -/
def execPeek (d r : Reg) (s : State) : Result :=
  withPort (s.x r) (fun n s => writeReg d (s.pins n) s) s

/-- SETPT (R481). -/
def execSetpt (r src : Reg) (s : State) : Result :=
  withPort (s.x r) (fun n s =>
    if (s.port n).direction = .output && (s.port n).trfull then pauseOnPort n s
    else .next (s.updPort n fun p => { p with porttime := (s.x src).setWidth 16, porttimeset := true })) s

/-- CLRPT (R482). -/
def execClrpt (r : Reg) (s : State) : Result :=
  withPort (s.x r) (fun n s => .next (s.updPort n fun p => { p with porttimeset := false })) s

/-- GETTS (R483). -/
def execGetts (d r : Reg) (s : State) : Result :=
  withPort (s.x r) (fun n s => writeReg d ((s.port n).timestamp.setWidth 32) s) s

/-- SETTW (R488). -/
def execSettw (r src : Reg) (s : State) : Result :=
  withPort (s.x r) (fun n s =>
    let w := (s.x src).toNat
    if (s.port n).modes.bufmode = .buffered && (s.port n).legalWidth w then
      .next (s.updPort n fun p => { p with trwidth := w, shiftcount := w })
    else badResource (s.x r) s) s

/-- Continue with a BUFFERED port in use for which a shift count is valid, or raise (R489, R491). -/
def withCount (r : Word) (count : Nat) (k : Nat → State → Result) (s : State) : Result :=
  withPort r (fun n s =>
    if (s.port n).modes.bufmode = .buffered && (s.port n).validCount count then k n s else badResource r s) s

/-- SETPSC (R489). -/
def execSetpsc (r src : Reg) (s : State) : Result :=
  withCount (s.x r) (s.x src).toNat (fun n s =>
    .next (s.updPort n fun p => { p with shiftcount := (s.x src).toNat })) s

/-- ENDIN (R490): with nothing in the shift register the shift count is the transfer width. -/
def execEndin (d r : Reg) (s : State) : Result :=
  withPort (s.x r) (fun n s =>
    let p := s.port n
    if p.modes.bufmode = .buffered && p.direction = .input then
      writeReg d (word ((if p.trfull then p.trwidth else 0) + p.sfill))
        (s.updPort n fun p => { p with shiftcount := if p.sfill = 0 then p.trwidth else p.sfill })
    else badResource (s.x r) s) s

/-- OUTPW (R491). -/
def execOutpw (src r : Reg) (b : Us) (s : State) : Result :=
  withCount (s.x r) (bitp b) (fun n s =>
    outPort (s.x r) n (s.x src) (fun p => { p with shiftcount := bitp b }) id s) s

/-- INPW writes the shift count at its first issue only (R492; log 22). -/
def Port.beginPartial (tid count : Nat) (p : Port) : Port :=
  if p.pw = some tid then p else { p with shiftcount := count, pw := some tid }

/-- INPW (R492). -/
def execInpw (d r : Reg) (b : Us) (s : State) : Result :=
  withCount (s.x r) (bitp b) (fun n s =>
    inPort (s.x r) n (Port.beginPartial s.tid (bitp b)) (fun v t => t.setX d v) s) s

/-- SYNCR (R493). -/
def execSyncr (r : Reg) (s : State) : Result :=
  withPort (s.x r) (fun n s =>
    let p := s.port n
    if p.direction = .output && !(!p.trfull && p.sfill = 0 && p.held) then pauseOnPort n s else .next s) s

end Sys2Proof.Machine
end

