-- ==== Sys2Proof/Machine/Resources.lean ====
section
/-! DEFINITION. The resource, thread and synchroniser instructions (spec/43_resources_threads.md), and the modes of SETC
(R451 to R453, R466 of spec/45_timers_clocks_ports.md). -/
namespace Sys2Proof.Machine

/-- The lowest number below n that is not in use (R355, D28). -/
def firstFree (n : Nat) (used : Nat → Bool) : Option Nat := (List.range n).find? fun k => !used k

/-- Event state after allocation (R49 to R52), in the given mode: the vectors are unspecified (R50), so they are free
values (log 11). -/
def EventState.fresh (e : EventState) (free : Nat) (mode : IeMode) : EventState :=
  { e with v := Config.freeWord free, ev := Config.freeWord (free + 1), enb := false, iemode := mode }

/-- Timer k allocated (R355, R455). -/
def State.allocTimer (s : State) (k : Nat) : State :=
  { s.updTimer k fun t => { t with inuse := true, cond := .uncond, data := Config.freeWord (s.free + 2),
                                   es := t.es.fresh s.free .event, waiter := none } with free := s.free + 3 }

/-- Channel end k allocated (R355, R65, R66). -/
def State.allocChan (s : State) (k : Nat) : State :=
  { s.updChan k fun c => { c with inuse := true, dest := Config.freeWord (s.free + 2), destset := false,
                                  net := Config.freeWord (s.free + 3), es := c.es.fresh s.free .event, inbuf := [],
                                  route := false, inmsg := false, waiterIn := none, waiterOut := none,
                                  flight := [], owner := none } with free := s.free + 4 }

/-- Synchroniser k allocated (R355, R58). -/
def State.allocSync (s : State) (k : Nat) : State :=
  s.updSync k fun y => { y with inuse := true, slaves := [], msyn := false, mjoin := false }

/-- Lock k allocated (R355, R67). That no owner is recorded is the model's choice (log 41). -/
def State.allocLock (s : State) (k : Nat) : State :=
  s.updLock k fun l => { l with inuse := true, held := false, owner := none, queue := [] }

/-- Thread k allocated (R355, R377): it is paused, its status register is 0, its other registers keep their values
(R89); `syn` is the synchroniser that creates it. -/
def State.allocThread (s : State) (k : Nat) (syn : Option Nat) : State :=
  { s.updThr k fun t => { t with inuse := true, sr := SR.zero, syn := syn } with spaused := insertSet k s.spaused }

/-- Allocate the lowest free resource and give its identifier, or 0 where there is none (R355). -/
def allocate (d : Reg) (free : Option Nat) (alloc : State → Nat → State) (ident : Nat → Word) (s : State) : Result :=
  match free with
  | some k => writeReg d (ident k) (alloc s k)
  | none => writeReg d 0#32 s

/-- GETR (R355). -/
def execGetr (d : Reg) (us : Us) (s : State) : Result :=
  match us.val with
  | 1 => allocate d (firstFree s.timers.length fun k => (s.timer k).inuse) State.allocTimer (plainId 1) s
  | 2 => allocate d (firstFree s.chans.length fun k => (s.chan k).inuse) State.allocChan (chanId s.plat) s
  | 3 => allocate d (firstFree s.syncs.length fun k => (s.sync k).inuse) State.allocSync (plainId 3) s
  | 4 => allocate d (firstFree s.threads.length fun k => (s.thr k).inuse) (fun s k => s.allocThread k none)
      (plainId 4) s
  | 5 => allocate d (firstFree s.locks.length fun k => (s.lock k).inuse) State.allocLock (plainId 5) s
  | _ => writeReg d 0#32 s

/-- FREER of a channel end has to trap (R356). -/
def Chanend.busy (c : Chanend) : Bool :=
  c.route || c.inmsg || !c.inbuf.isEmpty || c.waiterIn.isSome || c.waiterOut.isSome

/-- FREER (R356). That a thread paused in it is the channel end's `waiterOut` is the model's choice (log 46). -/
def execFreer (r : Reg) (s : State) : Result :=
  match s.live (s.x r) with
  | some (.timer n) => .next (s.updTimer n fun t => { t with inuse := false, es := { t.es with enb := false } })
  | some (.sync n) => .next (s.updSync n fun y => { y with inuse := false })
  | some (.lock n) => .next (s.updLock n fun l => { l with inuse := false })
  | some (.thread n) =>
    if s.spaused.contains n then .next (s.updThr n fun t => { t with inuse := false }) else badResource (s.x r) s
  | some (.chan n) =>
    if (s.chan n).busy then badResource (s.x r) s
    else if !(s.chan n).flight.isEmpty then pauseOnChanOut n s
    else .next (s.updChan n fun c => { c with inuse := false, es := { c.es with enb := false } })
  | _ => badResource (s.x r) s

/-- The modes of SETC (R452). COND_FULL is COND_NONE; COND_GREATER and COND_LESS are usable on nothing. -/
inductive Mode where
  | inuseOff | inuseOn
  | condNone | condAfter | condEq | condNeq
  | ieEvent | ieInterrupt
  | driveDrive | drivePullDown | drivePullUp
  | runStop | runStart | runClrbuf
  | msMaster | msSlave
  | bufNoBuffers | bufBuffers
  | rdyNoReady | rdyStrobed | rdyHandshake
  | noSDelay | sDelay
  | dataPort | clockPort | readyPort
  | noInvert | invert
deriving DecidableEq, Repr

/-- The mode a value stands for (R451, R452). -/
def modeOf (v : Word) : Option Mode :=
  match v.toNat with
  | 0x0000 => some .inuseOff
  | 0x0008 => some .inuseOn
  | 0x0001 => some .condNone
  | 0x0009 => some .condAfter
  | 0x0011 => some .condEq
  | 0x0019 => some .condNeq
  | 0x0002 => some .ieEvent
  | 0x000A => some .ieInterrupt
  | 0x0003 => some .driveDrive
  | 0x000B => some .drivePullDown
  | 0x0013 => some .drivePullUp
  | 0x0007 => some .runStop
  | 0x000F => some .runStart
  | 0x0017 => some .runClrbuf
  | 0x1007 => some .msMaster
  | 0x100F => some .msSlave
  | 0x2007 => some .bufNoBuffers
  | 0x200F => some .bufBuffers
  | 0x3007 => some .rdyNoReady
  | 0x300F => some .rdyStrobed
  | 0x3017 => some .rdyHandshake
  | 0x4007 => some .noSDelay
  | 0x400F => some .sDelay
  | 0x5007 => some .dataPort
  | 0x500F => some .clockPort
  | 0x5017 => some .readyPort
  | 0x6007 => some .noInvert
  | 0x600F => some .invert
  | _ => none

/-- A port switched ON (R466): every setting at its default (R453), the registers empty, the pins not driven. What the spec
leaves unspecified is a free value (log 11). That it forgets its ready port, and its ready output falls, is the model's
choice (log 38); so are `held` and `inputting` (log 20). -/
def Port.switchedOn (pl : Platform) (free : Nat) (p : Port) : Port :=
  { p with
    inuse := true, running := true, modes := pl.portDefaults, cond := pl.portCond
    data := Config.freeWord (free + 2), es := p.es.fresh free pl.portIemode, waiter := none
    trfull := false, trwidth := idWidth p.id, shift := Config.freeWord (free + 3), sfill := 0
    shiftcount := idWidth p.id, direction := .input, driving := false
    porttimer := (Config.freeWord (free + 4)).setWidth 16, timestamp := (Config.freeWord (free + 5)).setWidth 16
    porttimeset := false, clk := pl.refClkId, rdyport := none, rdyout := false
    held := true, inputting := false, pw := none }

/-- The transfer and shift registers of a port emptied; what the shift register then holds is a free value (log 11). -/
def Port.emptied (free : Nat) (p : Port) : Port :=
  { p with trfull := false, sfill := 0, shift := Config.freeWord free }

/-- A port after RUN_STARTR (R466). That a SYNCHRONISED port keeps the note that it has input, for when it is made
BUFFERED without a further start, is the model's choice (log 20); so is that a BUFFERED one, whose registers are emptied,
keeps its shift count (log 23). -/
def Port.started (free : Nat) (p : Port) : Port :=
  match p.modes.bufmode with
  | .synchronised => { p with running := true }
  | .buffered => { p.emptied free with running := true, direction := .input, inputting := false }

/-- The effect of a mode on a port (R452, R466); none where the mode cannot be used on it. -/
def Port.setMode (pl : Platform) (free : Nat) (p : Port) : Mode → Option Port
  | .inuseOff => some { p with inuse := false, driving := false, es := { p.es with enb := false } }
  | .inuseOn => some (p.switchedOn pl free)
  | .condNone => some { p with cond := .uncond }
  | .condAfter => none
  | .condEq => some { p with cond := .eq }
  | .condNeq => some { p with cond := .neq }
  | .ieEvent => some { p with es := { p.es with iemode := .event } }
  | .ieInterrupt => some { p with es := { p.es with iemode := .interrupt } }
  | .driveDrive => some { p with modes := { p.modes with drive := .drive } }
  | .drivePullDown => some { p with modes := { p.modes with drive := .pullDown } }
  | .drivePullUp => some { p with modes := { p.modes with drive := .pullUp } }
  | .runStop => some { p with running := false }
  | .runStart => some (p.started free)
  | .runClrbuf => some { p.emptied free with shiftcount := p.trwidth }
  | .msMaster => some { p with modes := { p.modes with msmode := .master } }
  | .msSlave => some { p with modes := { p.modes with msmode := .slave } }
  | .bufNoBuffers =>
    some { p with modes := { p.modes with bufmode := .synchronised }, trwidth := idWidth p.id,
                  shiftcount := idWidth p.id }
  | .bufBuffers => some { p with modes := { p.modes with bufmode := .buffered } }
  | .rdyNoReady => some { p with modes := { p.modes with rdymode := .noReady } }
  | .rdyStrobed => some { p with modes := { p.modes with rdymode := .strobed } }
  | .rdyHandshake => some { p with modes := { p.modes with rdymode := .handshaken } }
  | .noSDelay => some { p with modes := { p.modes with sdelay := .noSDelay } }
  | .sDelay => some { p with modes := { p.modes with sdelay := .sDelay } }
  | .dataPort => some { p with modes := { p.modes with porttype := .dataPort } }
  | .clockPort => if idWidth p.id = 1 then some { p with modes := { p.modes with porttype := .clockPort } } else none
  | .readyPort => if idWidth p.id = 1 then some { p with modes := { p.modes with porttype := .readyPort } } else none
  | .noInvert => some { p with modes := { p.modes with invert := .noInvert } }
  | .invert => if idWidth p.id = 1 then some { p with modes := { p.modes with invert := .invert } } else none

/-- The effect of a mode on a timer (R452). -/
def Timer.setMode (t : Timer) : Mode → Option Timer
  | .condNone => some { t with cond := .uncond }
  | .condAfter => some { t with cond := .after }
  | .ieEvent => some { t with es := { t.es with iemode := .event } }
  | .ieInterrupt => some { t with es := { t.es with iemode := .interrupt } }
  | _ => none

/-- The effect of a mode on a channel end (R452). -/
def Chanend.setMode (c : Chanend) : Mode → Option Chanend
  | .ieEvent => some { c with es := { c.es with iemode := .event } }
  | .ieInterrupt => some { c with es := { c.es with iemode := .interrupt } }
  | _ => none

/-- The effect of a mode on a clock block (R452, R460). That INUSE_ON keeps the level last seen of the old source, and
that STOP and START keep the count of the divider, is the model's choice (log 18). -/
def ClockBlock.setMode (ref : Word) (c : ClockBlock) : Mode → Option ClockBlock
  | .inuseOff => some { c with inuse := false }
  | .inuseOn =>
    some { c with inuse := true, running := false, source := ref, div := 0#8, rdysrc := none, count := 0 }
  | .runStop => some { c with running := false }
  | .runStart => some { c with running := true }
  | _ => none

/-- How many free values a mode uses on a port. -/
def Mode.freeUsed : Mode → Nat
  | .inuseOn => 6
  | .runStart => 1
  | .runClrbuf => 1
  | _ => 0

/-- The in-use test is skipped for the mode on a clock block (R357). -/
def Mode.isInuse : Mode → Bool
  | .inuseOff => true
  | .inuseOn => true
  | _ => false

/-- The in-use test is skipped for the mode on a port: for INUSE_ON, and for INUSE_OFF where the platform follows R357
rather than R466 (log 47). -/
def Mode.skipsOnPort (pl : Platform) : Mode → Bool
  | .inuseOff => !pl.offNeedsInuse
  | .inuseOn => true
  | _ => false

/-- SETC on the resource with identifier r, with a mode value (R357, R452). -/
def setControl (r v : Word) (s : State) : Result :=
  match modeOf v, s.lookup r with
  | some m, some (.port n) =>
    if (s.port n).inuse || m.skipsOnPort s.plat then
      match (s.port n).setMode s.plat s.free m with
      | some p => .next { s.updPort n fun _ => p with free := s.free + m.freeUsed }
      | none => badResource r s
    else badResource r s
  | some m, some (.clk n) =>
    if (s.clk n).inuse || m.isInuse then
      match (s.clk n).setMode s.plat.refClkId m with
      | some c => .next (s.updClk n fun _ => c)
      | none => badResource r s
    else badResource r s
  | some m, some (.timer n) =>
    match if (s.timer n).inuse then (s.timer n).setMode m else none with
    | some t => .next (s.updTimer n fun _ => t)
    | none => badResource r s
  | some m, some (.chan n) =>
    match if (s.chan n).inuse then (s.chan n).setMode m else none with
    | some c => .next (s.updChan n fun _ => c)
    | none => badResource r s
  | _, _ => badResource r s

/-- SETC (R357). -/
def execSetc (r src : Reg) (s : State) : Result :=
  setControl (s.x r) (s.x src) s

/-- SETCI (R358). -/
def execSetci (r : Reg) (u16 : BitVec 16) (s : State) : Result :=
  setControl (s.x r) (immWord u16) s

/-- Continue with a thread that is in use and paused in spaused, or raise (R370). -/
def withPausedThread (t : Word) (k : Nat → State → Result) (s : State) : Result :=
  withThread t (fun n s => if s.spaused.contains n then k n s else badResource t s) s

/-- Write a register of a paused thread (R371 to R374). -/
def initReg (i : Reg) (v t : Word) (s : State) : Result :=
  withPausedThread t (fun n s => .next (s.updThr n fun th => th.put i v)) s

/-- TINITPC (R370). It starts nothing, so that the thread's instruction buffer stays as it is (R737). -/
def execTinitpc (src t : Reg) (s : State) : Result :=
  withPausedThread (s.x t) (fun n s => .next (s.updThr n fun th => { th with pc := s.x src })) s

/-- TINITSP (R371). -/
def execTinitsp (src t : Reg) (s : State) : Result :=
  initReg sp (s.x src) (s.x t) s

/-- TINITDP (R372). -/
def execTinitdp (src t : Reg) (s : State) : Result :=
  initReg dp (s.x src) (s.x t) s

/-- TINITCP (R373). -/
def execTinitcp (src t : Reg) (s : State) : Result :=
  initReg cp (s.x src) (s.x t) s

/-- TINITLR (R374). -/
def execTinitlr (src t : Reg) (s : State) : Result :=
  initReg lr (s.x src) (s.x t) s

/-- TSETR (R375). -/
def execTsetr (d src t : Reg) (s : State) : Result :=
  withThread (s.x t) (fun n s => .next (s.updThr n fun th => th.put d (s.x src))) s

/-- syn(t) (R58): the synchroniser that created thread t, while it is in use and t is among its slaves (log 24). -/
def State.synOf (s : State) (t : Nat) : Option Nat :=
  (s.thr t).syn.filter fun k => (s.sync k).inuse && (s.sync k).slaves.contains t

/-- TSETMR (R376). -/
def execTsetmr (d src : Reg) (s : State) : Result :=
  match s.synOf s.tid with
  | none => .refused .noSynchroniser
  | some k =>
    let m := (s.sync k).mstr
    if (s.thr m).inuse then .next (s.updThr m fun th => th.put d (s.x src)) else badResource (plainId 4 m) s

/-- GETST (R377). -/
def execGetst (d r : Reg) (s : State) : Result :=
  withSync (s.x r) (fun k s =>
    allocate d (firstFree s.threads.length fun t => (s.thr t).inuse)
      (fun s t => (s.allocThread t (some k)).updSync k fun y =>
        { y with slaves := insertSet t y.slaves, mstr := s.tid })
      (plainId 4) s) s

/-- Threads leave spaused and go on from their pc (R378). -/
def State.release (s : State) (ts : List Nat) : State := { s with spaused := minusSet s.spaused ts }

/-- Threads are started by TSTART or MSYNC (R379, R381): they go on with empty instruction buffers (R737). That MSYNC
starts in this sense a slave that waits in SSYNC too, and not only one just created, is the model's choice (log 13). -/
def State.startThreads (s : State) (ts : List Nat) : State :=
  { s.release ts with stale := s.stale.filter fun e => !ts.contains e.thread }

/-- The slaves of synchroniser k that are not paused: slaves - spaused (R380). -/
def State.running (s : State) (k : Nat) : List Nat := minusSet (s.sync k).slaves s.spaused

/-- The slaves of synchroniser k are freed (R380, R383). -/
def State.freeSlaves (s : State) (k : Nat) : State :=
  ((s.sync k).slaves.foldl (fun s x => s.updThr x fun t => { t with inuse := false }) s).updSync k fun y =>
    { y with slaves := [], mjoin := false }

/-- sr[eeble] <- 0 (R380). -/
def State.clearEeble (s : State) : State := s.updCur fun t => { t with sr := { t.sr with eeble := false } }

/-- TSTART (R379). -/
def execTstart (t : Reg) (s : State) : Result :=
  withPausedThread (s.x t) (fun n s =>
    if legalPc s.plat (s.thr n).pc then
      .next ((s.startThreads [n]).resumeThr n)
    else raised .illegalPc (s.thr n).pc s) s

/-- SSYNC (R380). That the last slave of a join, which its SSYNC frees, is not stopped in the sense of R380 where it is in
an interrupt is the model's choice (log 29). -/
def execSsync (s : State) : Result :=
  match s.synOf s.tid with
  | none => .refused .noSynchroniser
  | some k =>
    let y := s.sync k
    if s.running k = [s.tid] && y.msyn then
      let s' := if y.mjoin then s.clearEeble.freeSlaves k else s.clearEeble.release y.slaves
      .next { s'.updSync k fun y => { y with msyn := false } with mpaused := minusSet s.mpaused [y.mstr] }
    else if s.cur.sr.inint then .refused .syncInInterrupt
    else .next { s.clearEeble with spaused := insertSet s.tid s.spaused }

/-- The master stops (R381, R383). -/
def State.stopMaster (s : State) (k : Nat) (join : Bool) : Result :=
  if s.cur.sr.inint then .refused .syncInInterrupt
  else .next { s.clearEeble.updSync k fun y => { y with msyn := true, mjoin := y.mjoin || join } with
    mpaused := insertSet s.tid s.mpaused }

/-- MSYNC (R381). Of several slaves with an illegal pc the lowest-numbered is reported. -/
def execMsync (r : Reg) (s : State) : Result :=
  withSync (s.x r) (fun k s =>
    if s.running k = [] then
      match ((s.sync k).slaves.filter fun x => !legalPc s.plat (s.thr x).pc).min? with
      | some x => raised .illegalPc (s.thr x).pc s
      | none => .next (s.clearEeble.startThreads (s.sync k).slaves)
    else s.stopMaster k false) s

/-- MJOIN (R383). -/
def execMjoin (r : Reg) (s : State) : Result :=
  withSync (s.x r) (fun k s =>
    if s.running k = [] then .next (s.clearEeble.freeSlaves k) else s.stopMaster k true) s

/-- FREET (R384). -/
def execFreet (s : State) : Result :=
  .next (s.updCur fun t => { t with inuse := false })

/-- GETID (R385). -/
def execGetid (s : State) : Result :=
  writeReg r11 (word s.tid) s

end Sys2Proof.Machine
end

