-- ==== Sys2Proof/Machine/Specialised.lean ====
section
/-! DEFINITION. The long arithmetic and CRC instructions (spec/48_specialised.md). -/
namespace Sys2Proof.Machine

/-- The high word of a number below 2^64. -/
def highWord (n : Nat) : Word := word (n / 2 ^ 32)

/-- n steps of the CRC loop over the low bits of the data, least significant first (R627). -/
def crcSteps : Nat → Word → Word → Word → Word
  | 0, c, _, _ => c
  | n + 1, c, d, p =>
    let shifted := (d <<< 31) ||| (c >>> 1)
    crcSteps n (if c.getLsbD 0 then shifted ^^^ p else shifted) (d >>> 1) p

/-- LADD (R621). -/
def execLadd (d e x y v : Reg) (s : State) : Result :=
  let r := (s.x x).toNat + (s.x y).toNat + bits (s.x v) 0 1
  writePair d e (word r) (highWord r) s

/-- LSUB (R622). -/
def execLsub (d e x y v : Reg) (s : State) : Result :=
  let b := bits (s.x v) 0 1
  writePair d e (s.x x - s.x y - word b) (boolWord (decide ((s.x x).toNat < (s.x y).toNat + b))) s

/-- LDIVU (R623). -/
def execLdivu (d e x y v : Reg) (s : State) : Result :=
  let n := (s.x v).toNat * 2 ^ 32 + (s.x x).toNat
  if s.x y = 0#32 || (s.x y).ule (s.x v) then raised .arithmetic 0#32 s
  else writePair d e (word (n / (s.x y).toNat)) (word (n % (s.x y).toNat)) s

/-- LMUL (R624). -/
def execLmul (d e x y v w : Reg) (s : State) : Result :=
  let r := (s.x x).toNat * (s.x y).toNat + (s.x v).toNat + (s.x w).toNat
  writePair d e (highWord r) (word r) s

/-- MACCS (R625). -/
def execMaccs (d e x y : Reg) (s : State) : Result :=
  let acc : Int := ((s.x d).toNat * 2 ^ 32 + (s.x e).toNat : Nat)
  let r := BitVec.ofInt 64 (acc + (s.x x).toInt * (s.x y).toInt)
  writePair d e (highWord r.toNat) (word r.toNat) s

/-- MACCU (R626). -/
def execMaccu (d e x y : Reg) (s : State) : Result :=
  let acc := (s.x d).toNat * 2 ^ 32 + (s.x e).toNat
  let r := acc + (s.x x).toNat * (s.x y).toNat
  writePair d e (highWord r) (word r) s

/-- CRC (R627). -/
def execCrc (r d p : Reg) (s : State) : Result :=
  writeReg r (crcSteps 32 (s.x r) (s.x d) (s.x p)) s

/-- CRC8 (R628). -/
def execCrc8 (o r d p : Reg) (s : State) : Result :=
  writePair o r (s.x d >>> 8) (crcSteps 8 (s.x r) (s.x d) (s.x p)) s

end Sys2Proof.Machine
end

