-- ==== Sys2Proof/Machine/Dispatch.lean ====
section
/-! DEFINITION. The dispatch: one arm per instruction, each one direct call of its meaning. -/
namespace Sys2Proof.Machine

def exec (i : Instr) (s : State) : Host.Outcome State Fault Refusal :=
  match i with
  -- Data access (spec/40_data_access.md)
  | .ldwsp d u16 => Sys2Proof.Machine.execLdwsp d u16 s
  | .stwsp src u16 => Sys2Proof.Machine.execStwsp src u16 s
  | .ldawsp d u16 => Sys2Proof.Machine.execLdawsp d u16 s
  | .ldwdp d u16 => Sys2Proof.Machine.execLdwdp d u16 s
  | .stwdp src u16 => Sys2Proof.Machine.execStwdp src u16 s
  | .ldawdp d u16 => Sys2Proof.Machine.execLdawdp d u16 s
  | .ldc d u16 => Sys2Proof.Machine.execLdc d u16 s
  | .ldwcp d u16 => Sys2Proof.Machine.execLdwcp d u16 s
  | .ldawcp u16 => Sys2Proof.Machine.execLdawcp u16 s
  | .ldwcpl u20 => Sys2Proof.Machine.execLdwcpl u20 s
  | .ldapf u20 => Sys2Proof.Machine.execLdapf u20 s
  | .ldapb u20 => Sys2Proof.Machine.execLdapb u20 s
  | .ldwi d b us => Sys2Proof.Machine.execLdwi d b us s
  | .stwi src b us => Sys2Proof.Machine.execStwi src b us s
  | .ldawfi d b us => Sys2Proof.Machine.execLdawfi d b us s
  | .ldawbi d b us => Sys2Proof.Machine.execLdawbi d b us s
  | .ldw d b idx => Sys2Proof.Machine.execLdw d b idx s
  | .stw src b idx => Sys2Proof.Machine.execStw src b idx s
  | .ldawf d b idx => Sys2Proof.Machine.execLdawf d b idx s
  | .ldawb d b idx => Sys2Proof.Machine.execLdawb d b idx s
  | .ld16s d b idx => Sys2Proof.Machine.execLd16s d b idx s
  | .st16 src b idx => Sys2Proof.Machine.execSt16 src b idx s
  | .lda16f d b idx => Sys2Proof.Machine.execLda16f d b idx s
  | .lda16b d b idx => Sys2Proof.Machine.execLda16b d b idx s
  | .ld8u d b idx => Sys2Proof.Machine.execLd8u d b idx s
  | .st8 src b idx => Sys2Proof.Machine.execSt8 src b idx s
  -- Expression evaluation (spec/41_expression.md)
  | .add d x y => Sys2Proof.Machine.execAdd d x y s
  | .addi d x us => Sys2Proof.Machine.execAddi d x us s
  | .sub d x y => Sys2Proof.Machine.execSub d x y s
  | .subi d x us => Sys2Proof.Machine.execSubi d x us s
  | .neg d src => Sys2Proof.Machine.execNeg d src s
  | .eq c x y => Sys2Proof.Machine.execEq c x y s
  | .eqi c x us => Sys2Proof.Machine.execEqi c x us s
  | .lss c x y => Sys2Proof.Machine.execLss c x y s
  | .lsu c x y => Sys2Proof.Machine.execLsu c x y s
  | .and d x y => Sys2Proof.Machine.execAnd d x y s
  | .or d x y => Sys2Proof.Machine.execOr d x y s
  | .xor d x y => Sys2Proof.Machine.execXor d x y s
  | .not d src => Sys2Proof.Machine.execNot d src s
  | .andnot d src => Sys2Proof.Machine.execAndnot d src s
  | .shl d x y => Sys2Proof.Machine.execShl d x y s
  | .shli d x bitp => Sys2Proof.Machine.execShli d x bitp s
  | .shr d x y => Sys2Proof.Machine.execShr d x y s
  | .shri d x bitp => Sys2Proof.Machine.execShri d x bitp s
  | .ashr d x y => Sys2Proof.Machine.execAshr d x y s
  | .ashri d x bitp => Sys2Proof.Machine.execAshri d x bitp s
  | .mul d x y => Sys2Proof.Machine.execMul d x y s
  | .divs d x y => Sys2Proof.Machine.execDivs d x y s
  | .divu d x y => Sys2Proof.Machine.execDivu d x y s
  | .rems d x y => Sys2Proof.Machine.execRems d x y s
  | .remu d x y => Sys2Proof.Machine.execRemu d x y s
  | .mkmsk d src => Sys2Proof.Machine.execMkmsk d src s
  | .mkmski d bitp => Sys2Proof.Machine.execMkmski d bitp s
  | .sext d src => Sys2Proof.Machine.execSext d src s
  | .sexti d bitp => Sys2Proof.Machine.execSexti d bitp s
  | .zext d src => Sys2Proof.Machine.execZext d src s
  | .zexti d bitp => Sys2Proof.Machine.execZexti d bitp s
  | .bitrev d src => Sys2Proof.Machine.execBitrev d src s
  | .byterev d src => Sys2Proof.Machine.execByterev d src s
  | .clz d src => Sys2Proof.Machine.execClz d src s
  -- Branching, jumping and calling (spec/42_branch_call.md)
  | .brft c u16 => Sys2Proof.Machine.execBrft c u16 s
  | .brff c u16 => Sys2Proof.Machine.execBrff c u16 s
  | .brbt c u16 => Sys2Proof.Machine.execBrbt c u16 s
  | .brbf c u16 => Sys2Proof.Machine.execBrbf c u16 s
  | .brfu u16 => Sys2Proof.Machine.execBrfu u16 s
  | .brbu u16 => Sys2Proof.Machine.execBrbu u16 s
  | .bru src => Sys2Proof.Machine.execBru src s
  | .bau src => Sys2Proof.Machine.execBau src s
  | .blrf u20 => Sys2Proof.Machine.execBlrf u20 s
  | .blrb u20 => Sys2Proof.Machine.execBlrb u20 s
  | .bla src => Sys2Proof.Machine.execBla src s
  | .blacp u20 => Sys2Proof.Machine.execBlacp u20 s
  | .blat u16 => Sys2Proof.Machine.execBlat u16 s
  | .entsp u16 => Sys2Proof.Machine.execEntsp u16 s
  | .retsp u16 => Sys2Proof.Machine.execRetsp u16 s
  | .extsp u16 => Sys2Proof.Machine.execExtsp u16 s
  | .extdp u16 => Sys2Proof.Machine.execExtdp u16 s
  | .setsp src => Sys2Proof.Machine.execSetsp src s
  | .setdp src => Sys2Proof.Machine.execSetdp src s
  | .setcp src => Sys2Proof.Machine.execSetcp src s
  -- Resources and threads (spec/43_resources_threads.md)
  | .getr d us => Sys2Proof.Machine.execGetr d us s
  | .freer r => Sys2Proof.Machine.execFreer r s
  | .setc r src => Sys2Proof.Machine.execSetc r src s
  | .setci r u16 => Sys2Proof.Machine.execSetci r u16 s
  | .tinitpc src t => Sys2Proof.Machine.execTinitpc src t s
  | .tinitsp src t => Sys2Proof.Machine.execTinitsp src t s
  | .tinitdp src t => Sys2Proof.Machine.execTinitdp src t s
  | .tinitcp src t => Sys2Proof.Machine.execTinitcp src t s
  | .tinitlr src t => Sys2Proof.Machine.execTinitlr src t s
  | .tsetr d src t => Sys2Proof.Machine.execTsetr d src t s
  | .tsetmr d src => Sys2Proof.Machine.execTsetmr d src s
  | .getst d r => Sys2Proof.Machine.execGetst d r s
  | .tstart t => Sys2Proof.Machine.execTstart t s
  | .ssync => Sys2Proof.Machine.execSsync s
  | .msync r => Sys2Proof.Machine.execMsync r s
  | .mjoin r => Sys2Proof.Machine.execMjoin r s
  | .freet => Sys2Proof.Machine.execFreet s
  | .getid => Sys2Proof.Machine.execGetid s
  -- Channels and locks (spec/44_communication_locks.md)
  | .setd r src => Sys2Proof.Machine.execSetd r src s
  | .getd d r => Sys2Proof.Machine.execGetd d r s
  | .setn r src => Sys2Proof.Machine.execSetn r src s
  | .getn d r => Sys2Proof.Machine.execGetn d r s
  | .outt r src => Sys2Proof.Machine.execOutt r src s
  | .outct r src => Sys2Proof.Machine.execOutct r src s
  | .outcti r us => Sys2Proof.Machine.execOutcti r us s
  | .int d r => Sys2Proof.Machine.execInt d r s
  | .inct d r => Sys2Proof.Machine.execInct d r s
  | .chkct r src => Sys2Proof.Machine.execChkct r src s
  | .chkcti r us => Sys2Proof.Machine.execChkcti r us s
  | .out r src => Sys2Proof.Machine.execOut r src s
  | .in_ d r => Sys2Proof.Machine.execIn d r s
  | .testct d r => Sys2Proof.Machine.execTestct d r s
  | .testwct d r => Sys2Proof.Machine.execTestwct d r s
  | .testlcl d r => Sys2Proof.Machine.execTestlcl d r s
  -- Timers, clocks and ports (spec/45_timers_clocks_ports.md)
  | .setclk r src => Sys2Proof.Machine.execSetclk r src s
  | .setrdy r src => Sys2Proof.Machine.execSetrdy r src s
  | .outshr r d => Sys2Proof.Machine.execOutshr r d s
  | .inshr d r => Sys2Proof.Machine.execInshr d r s
  | .peek d r => Sys2Proof.Machine.execPeek d r s
  | .setpt r src => Sys2Proof.Machine.execSetpt r src s
  | .clrpt r => Sys2Proof.Machine.execClrpt r s
  | .getts d r => Sys2Proof.Machine.execGetts d r s
  | .settw r src => Sys2Proof.Machine.execSettw r src s
  | .setpsc r src => Sys2Proof.Machine.execSetpsc r src s
  | .endin d r => Sys2Proof.Machine.execEndin d r s
  | .outpw src r bitp => Sys2Proof.Machine.execOutpw src r bitp s
  | .inpw d r bitp => Sys2Proof.Machine.execInpw d r bitp s
  | .syncr r => Sys2Proof.Machine.execSyncr r s
  -- Events, interrupts, kernel calls and the status register (spec/46_events_kernel.md)
  | .getsr u16 => Sys2Proof.Machine.execGetsr u16 s
  | .setsr u16 => Sys2Proof.Machine.execSetsr u16 s
  | .clrsr u16 => Sys2Proof.Machine.execClrsr u16 s
  | .setv r => Sys2Proof.Machine.execSetv r s
  | .setev r => Sys2Proof.Machine.execSetev r s
  | .eet d r => Sys2Proof.Machine.execEet d r s
  | .eef d r => Sys2Proof.Machine.execEef d r s
  | .eeu r => Sys2Proof.Machine.execEeu r s
  | .edu r => Sys2Proof.Machine.execEdu r s
  | .clre => Sys2Proof.Machine.execClre s
  | .waitet c => Sys2Proof.Machine.execWaitet c s
  | .waitef c => Sys2Proof.Machine.execWaitef c s
  | .waiteu => Sys2Proof.Machine.execWaiteu s
  | .ecallt c => Sys2Proof.Machine.execEcallt c s
  | .ecallf c => Sys2Proof.Machine.execEcallf c s
  | .kcall src => Sys2Proof.Machine.execKcall src s
  | .kcalli u16 => Sys2Proof.Machine.execKcalli u16 s
  | .kret => Sys2Proof.Machine.execKret s
  | .ldspc => Sys2Proof.Machine.execLdspc s
  | .stspc => Sys2Proof.Machine.execStspc s
  | .ldssr => Sys2Proof.Machine.execLdssr s
  | .stssr => Sys2Proof.Machine.execStssr s
  | .ldsed => Sys2Proof.Machine.execLdsed s
  | .stsed => Sys2Proof.Machine.execStsed s
  | .ldet => Sys2Proof.Machine.execLdet s
  | .stet => Sys2Proof.Machine.execStet s
  | .getet => Sys2Proof.Machine.execGetet s
  | .geted => Sys2Proof.Machine.execGeted s
  | .kentsp u16 => Sys2Proof.Machine.execKentsp u16 s
  | .krestsp u16 => Sys2Proof.Machine.execKrestsp u16 s
  | .setkep => Sys2Proof.Machine.execSetkep s
  | .getkep => Sys2Proof.Machine.execGetkep s
  | .getksp => Sys2Proof.Machine.execGetksp s
  -- Debugging and processor state (spec/47_debug.md)
  | .dcall => Sys2Proof.Machine.execDcall s
  | .dret => Sys2Proof.Machine.execDret s
  | .dentsp => Sys2Proof.Machine.execDentsp s
  | .drestsp => Sys2Proof.Machine.execDrestsp s
  | .dgetreg src => Sys2Proof.Machine.execDgetreg src s
  | .getps d r => Sys2Proof.Machine.execGetps d r s
  | .setps r src => Sys2Proof.Machine.execSetps r src s
  -- Specialised (spec/48_specialised.md)
  | .ladd d e x y v => Sys2Proof.Machine.execLadd d e x y v s
  | .lsub d e x y v => Sys2Proof.Machine.execLsub d e x y v s
  | .ldivu d e x y v => Sys2Proof.Machine.execLdivu d e x y v s
  | .lmul d e x y v w => Sys2Proof.Machine.execLmul d e x y v w s
  | .maccs d e x y => Sys2Proof.Machine.execMaccs d e x y s
  | .maccu d e x y => Sys2Proof.Machine.execMaccu d e x y s
  | .crc r d p => Sys2Proof.Machine.execCrc r d p s
  | .crc8 o r d p => Sys2Proof.Machine.execCrc8 o r d p s

end Sys2Proof.Machine
end

