-- ==== Sys2Proof/Machine/Fetch.lean ====
section
/-! DEFINITION. Fetching an instruction's parcels (R96, R112), and laying parcels out in memory. -/
namespace Sys2Proof.Machine

/-- The old parcels that a thread's instruction buffer may still hold for an address (R112). -/
def State.staleAt (s : State) (t a : Nat) : List Parcel :=
  (s.stale.filter fun e => e.thread == t && e.addr == a).map StaleParcel.parcel

/-- Fetch the parcel at an address for a thread: what memory holds, or, after a store into the thread's instruction
buffer, a free choice between that and the old parcels (R112, R737; log 13). -/
def State.fetchParcel (s : State) (t a : Nat) : Parcel × State :=
  match s.staleAt t a with
  | [] => (Memory.parcel s.mem a, s)
  | old =>
    let all := Memory.parcel s.mem a :: old
    (all.getD (Config.freeNat s.free % all.length) 0#16, { s with free := s.free + 1 })

/-- Write a list of bytes at rising addresses. -/
def Memory.writeBytes (m : List Host.Cell) (a : Nat) : List Byte → List Host.Cell
  | [] => m
  | b :: l => Memory.writeBytes (Memory.write m a b) (a + 1) l

end Sys2Proof.Machine
end

