-- ==== Sys2Proof/Machine/Sched.lean ====
section
/-! DEFINITION. One step of a thread (R651 of spec/60_exceptions.md), the moves of the agenda, the fixed schedule that
acts when the agenda is empty (log 14), and the placing of an instruction where it is fetched next. -/
namespace Sys2Proof.Machine

/-- The state an instruction of thread t executes in (R16, R651 c): t is the executing thread, pc_this its old pc, and
its pc has moved past the instruction's `len` bytes. -/
def State.entered (s : State) (t len : Nat) : State :=
  { s with tid := t, pcThis := (s.thr t).pc }.updThr t fun th => { th with pc := th.pc + word len }

/-- Issue the instruction at the pc of thread t (R651 c, R664, R665). Thread 0 at an illegal BOOT_PC is refused
(R722; log 50). That a second parcel that does not exist goes before an EOPR parcel that is no instruction whatever the
second one is, is the model's choice (log 52). -/
def State.issue (s : State) (t : Nat) : Result :=
  let pc := (s.thr t).pc
  let s0 := { s with tid := t, pcThis := pc }
  if !legalPc s.plat pc then
    if t = 0 && pc = s.plat.bootPc then .refused .bootPcIllegal else raised .illegalPc pc s0
  else
    let f1 := s0.fetchParcel t pc.toNat
    if needsSecond f1.1.toNat then
      if !memValid s.plat (pc + 2#32).toNat then raised .illegalPc pc f1.2
      else
        let f2 := f1.2.fetchParcel t (pc + 2#32).toNat
        match decode s.plat.revision s.plat.pairs f1.1 f2.1 with
        | .error _ => raised .illegalInstruction 0#32 f2.2
        | .ok (i, len) => exec i (f2.2.entered t len)
    else
      match decode s.plat.revision s.plat.pairs f1.1 0#16 with
      | .error _ => raised .illegalInstruction 0#32 f1.2
      | .ok (i, len) => exec i (f1.2.entered t len)

/-- A move of thread t, after the external debug request of thread 0 where one is due (R651). -/
def State.threadMove (s : State) (t : Nat) (k : State → Result) : Result :=
  if t = 0 && s.debugDue then .next s.serveDebug else k s

/-- One move. A move that is not open leaves the state as it is. -/
def perform (s : State) : Move → Result
  | .issue t => s.threadMove t fun s => if s.runnable t then s.issue t else .next s
  | .event t r => s.threadMove t fun s => .next (if s.eventOpen t r then s.eventEnter t r else s)
  | .interrupt t r => s.threadMove t fun s => .next (if s.interruptOpen t r then s.interruptEnter t r else s)
  | .resume t => s.threadMove t fun s =>
      .next (if s.resumable t then s.resumeThr t else s)
  | .refEdge => .next s.refEdge
  | .clock k => .next (s.clockLook k)
  | .deliver c => .next (s.deliver c)
  | .envTake c => .next (s.envTake c)
  | .envToken c tok => .next (s.envToken c tok)
  | .envPins p v => .next (s.envPins p v)
  | .debugRequest cause => .next (s.debugRequest cause)

/-- The next thread of the fixed schedule, round robin from `rr`. -/
def State.nextThread (s : State) : Option Nat :=
  ((List.range s.threads.length).map fun i => (s.rr + i) % s.threads.length).find? s.canAct

/-- Event or interrupt entry by the fixed schedule, which notes the resource (log 14). -/
def State.autoEnter (s : State) (t : Nat) (r : ResRef) : State :=
  { if s.interruptOpen t r then s.interruptEnter t r else s.eventEnter t r with taken := useNow r s.taken }

/-- What the fixed schedule does with thread t: debug entry if due; the open event or interrupt of the resource that has
waited longest; else issue, a thread paused on a resource being resumed first (log 14, log 15). -/
def State.autoThread (s : State) (t : Nat) : Result :=
  s.threadMove t fun s =>
    match (leastRecent s.allRefs s.taken).find? fun r => s.interruptOpen t r || s.eventOpen t r with
    | some r => .next (s.autoEnter t r)
    | none =>
      if s.resumable t then (s.resumeThr t).issue t
      else if s.runnable t then s.issue t
      else .next s

/-- One step of the fixed schedule: a thread, then the other agents, in turn (log 14). -/
def State.auto (s : State) : Result :=
  if s.turn = 0 then
    match s.nextThread with
    | some t => { s with turn := 1, rr := t + 1 }.autoThread t
    | none => .next s.agentsRound
  else .next { s with turn := 0 }.agentsRound

/-- One step: the next move of the agenda, or of the fixed schedule. -/
def State.advance (s : State) : Result :=
  if s.threads.isEmpty then .fault .noThreads
  else match s.agenda with
    | m :: ms => perform { s with agenda := ms } m
    | [] => s.auto

/-- The state with an instruction, its bits numbered as the opcode table numbers them (R166, log 17), at the pc of the
thread that the fixed schedule takes next, and with the agenda set to issue it. -/
def State.placed (s : State) (nbits w : Nat) : State :=
  let t := s.nextThread.getD 0
  { s with
    mem := Memory.writeBytes s.mem (s.thr t).pc.toNat (parcelBytes (tableParcels nbits w))
    stale := s.stale.filter fun e => e.thread != t
    agenda := [.issue t] }

end Sys2Proof.Machine
end

