-- ==== Sys2Proof/Machine/Step.lean ====
section
/-! DEFINITION. The step function. -/
namespace Sys2Proof.Machine

/-- One step of the machine. -/
def step (s : State) : Host.Outcome State Fault Refusal := s.advance

/-- The state whose next step fetches and runs the instruction with the given bits (log 5, log 17). -/
def State.withFetchWord (s : State) (nbits w : Nat) : State := s.placed nbits w

end Sys2Proof.Machine
end

