-- ==== Sys2Proof/Safety.lean ====
section
/-! DEFINITION. What counts as a safe run, in the terms the statements use: the invariant that every step keeps, and
the frames: what an instruction leaves as it was. -/
namespace Sys2Proof.Machine

/-! ## The invariant -/

/-- A token that may stand in a channel end's buffer: no PAUSE and no hardware control token (R402, R405). -/
def Token.deliverable (t : Token) : Bool := t != pauseToken && !t.isHardware

/-- A token an output instruction may send: no hardware control token (R425). -/
def Token.sendable (t : Token) : Bool := !t.isHardware

/-- A channel end keeps its capacities and its tokens (R66, R402, R405, R407). -/
def Chanend.ok (pl : Platform) (c : Chanend) : Bool :=
  decide (c.inbuf.length ≤ pl.chanBuf) && decide (c.flight.length ≤ pl.flightCap) &&
    c.inbuf.all Token.deliverable && c.flight.all fun e => e.2.sendable

/-- An initial configuration, as R731 has it: of every other component of the state, memory among them (R729), nothing
is said. A step refuses an illegal BOOT_PC (R722; log 50). -/
def State.initial (s : State) : Prop :=
  (∃ t rest, s.threads = t :: rest ∧ t.inuse = true ∧ t.pc = s.plat.bootPc ∧ t.ksp = s.plat.kspBoot ∧
    ∀ u ∈ rest, u.inuse = false) ∧
  (∀ t ∈ s.threads, t.sr = SR.zero) ∧ s.spaused = [] ∧ s.mpaused = [] ∧ s.dbg.indbg = false ∧
  (∀ x ∈ s.timers, x.inuse = false ∧ x.es.enb = false ∧ x.waiter = none) ∧
  (∀ c ∈ s.chans, c.inuse = false ∧ c.es.enb = false ∧ c.waiterIn = none ∧ c.waiterOut = none ∧ c.inbuf = [] ∧
    c.flight = []) ∧
  (∀ y ∈ s.syncs, y.inuse = false) ∧ (∀ l ∈ s.locks, l.inuse = false) ∧
  (∀ c ∈ s.clks, c.inuse = false ∧ c.running = false) ∧
  (∀ p ∈ s.ports, p.inuse = false ∧ p.es.enb = false ∧ p.waiter = none)

/-- The invariant: memory is in its canonical form, and every channel end is in order. -/
def State.inv (s : State) : Bool := Memory.wf s.mem && s.chans.all (Chanend.ok s.plat)

/-- The same machine: the platform, the numbers of the resources and the identifiers of the ports (R10, R70). -/
def State.sameMachine (s t : State) : Prop :=
  t.plat = s.plat ∧ t.threads.length = s.threads.length ∧ t.timers.length = s.timers.length ∧
    t.chans.length = s.chans.length ∧ t.syncs.length = s.syncs.length ∧ t.locks.length = s.locks.length ∧
    t.clks.length = s.clks.length ∧ t.ports.map Port.id = s.ports.map Port.id

/-- A run is safe that the machine neither faults nor refuses. -/
def safeFor : Nat → State → Bool
  | 0, _ => true
  | n + 1, s =>
    match step s with
    | .next t => safeFor n t
    | _ => false

/-! ## Frames -/

/-- t is s but for the executing thread, whose registers are now th: no memory, no other thread and no resource has
changed. An instruction that jumps may also have emptied an instruction buffer of old parcels (log 13); none is new. -/
def State.becomes (s t : State) (th : Thread) : Prop :=
  t = { s with threads := s.threads.set s.tid th, stale := t.stale } ∧ ∀ e ∈ t.stale, e ∈ s.stale

/-- t is s but for the executing thread, whose registers are now th, and for the n bytes of memory from a on, which
hold the low n bytes of v, the least significant at a. What an instruction buffer may hold of the bytes that were
there is noted (log 13). -/
def State.stores (s t : State) (th : Thread) (a : Word) (n : Nat) (v : Word) : Prop :=
  t = { s with threads := s.threads.set s.tid th, mem := t.mem, stale := t.stale } ∧
    ∀ b, t.byte b = if a.toNat ≤ b ∧ b < a.toNat + n then BitVec.ofNat 8 (v.toNat / 256 ^ (b - a.toNat)) else s.byte b

/-- t is s after the executing thread has taken an exception (R660): nothing but its saved registers, its status and
its pc has changed. -/
def State.trapped (s t : State) (code info : Word) : Prop :=
  s.becomes t { s.cur with
    spc := s.pcThis
    ssr := s.cur.sr.toWord
    et := code
    sed := s.cur.ed
    ed := info
    pc := s.cur.kep
    sr := { s.cur.sr with sink := s.cur.sr.ink, ink := true, eeble := false, ieble := false } }

/-- The executing thread after it has paused on its instruction (R62), to be resumed at any time (R63). -/
def State.waitingCur (s : State) : Thread :=
  { s.cur with pc := s.pcThis, sr := { s.cur.sr with waiting := true }, evwait := false }

/-- s with thread n's registers replaced. -/
def State.withThr (s : State) (n : Nat) (th : Thread) : State := { s with threads := s.threads.set n th }

/-- s with port n replaced. -/
def State.withPortN (s : State) (n : Nat) (p : Port) : State := { s with ports := s.ports.set n p }

/-- s with timer n replaced. -/
def State.withTimerN (s : State) (n : Nat) (x : Timer) : State := { s with timers := s.timers.set n x }

/-- s with channel end n replaced. -/
def State.withChanN (s : State) (n : Nat) (c : Chanend) : State := { s with chans := s.chans.set n c }

/-- s with synchroniser n replaced. -/
def State.withSyncN (s : State) (n : Nat) (y : Sync) : State := { s with syncs := s.syncs.set n y }

/-- s with lock n replaced. -/
def State.withLockN (s : State) (n : Nat) (l : Lock) : State := { s with locks := s.locks.set n l }

/-- s with clock block n replaced. -/
def State.withClkN (s : State) (n : Nat) (c : ClockBlock) : State := { s with clks := s.clks.set n c }

/-- s with the event state of a port, timer or channel end replaced. -/
def State.withEsN (s : State) (q : ResRef) (e : EventState) : State :=
  match q with
  | .timer n => s.withTimerN n { s.timer n with es := e }
  | .chan n => s.withChanN n { s.chan n with es := e }
  | .port n => s.withPortN n { s.port n with es := e }

/-- The resource as the identifier table knows it. -/
def ResRef.res : ResRef → Res
  | .timer n => .timer n
  | .chan n => .chan n
  | .port n => .port n

end Sys2Proof.Machine
end

