-- ==== Sys2Proof/WellFormed.lean ====
section
/-! DEFINITION. Which terms of Instr are instructions: an operand written with a small letter is one of r0..r11, a
`us` is 0..11 and a `bitp` is an index 0..11 (R18, R133, R137, R150). The operand of the eight instructions written with
a capital letter may be any of the sixteen registers, and an immediate may have any value (R151). -/
namespace Sys2Proof

/-- A small-letter register operand: one of r0..r11 (R18). -/
def Reg.small (r : Reg) : Bool := r.val < 12

/-- A `us` operand or a bitp index: 0..11 (R133, R150). -/
def Us.ok (u : Us) : Bool := u.val < 12

/-- Every operand lies in the range its page gives. -/
def Instr.wellFormed : Instr → Bool
  | .ldwsp _ _ => true
  | .stwsp _ _ => true
  | .ldawsp _ _ => true
  | .ldwdp _ _ => true
  | .stwdp _ _ => true
  | .ldawdp _ _ => true
  | .ldc _ _ => true
  | .ldwcp _ _ => true
  | .ldawcp _ => true
  | .ldwcpl _ => true
  | .ldapf _ => true
  | .ldapb _ => true
  | .ldwi d b us => Reg.small d && Reg.small b && Us.ok us
  | .stwi src b us => Reg.small src && Reg.small b && Us.ok us
  | .ldawfi d b us => Reg.small d && Reg.small b && Us.ok us
  | .ldawbi d b us => Reg.small d && Reg.small b && Us.ok us
  | .ldw d b i => Reg.small d && Reg.small b && Reg.small i
  | .stw src b i => Reg.small src && Reg.small b && Reg.small i
  | .ldawf d b i => Reg.small d && Reg.small b && Reg.small i
  | .ldawb d b i => Reg.small d && Reg.small b && Reg.small i
  | .ld16s d b i => Reg.small d && Reg.small b && Reg.small i
  | .st16 src b i => Reg.small src && Reg.small b && Reg.small i
  | .lda16f d b i => Reg.small d && Reg.small b && Reg.small i
  | .lda16b d b i => Reg.small d && Reg.small b && Reg.small i
  | .ld8u d b i => Reg.small d && Reg.small b && Reg.small i
  | .st8 src b i => Reg.small src && Reg.small b && Reg.small i
  | .add d x y => Reg.small d && Reg.small x && Reg.small y
  | .addi d x us => Reg.small d && Reg.small x && Us.ok us
  | .sub d x y => Reg.small d && Reg.small x && Reg.small y
  | .subi d x us => Reg.small d && Reg.small x && Us.ok us
  | .neg d src => Reg.small d && Reg.small src
  | .eq c x y => Reg.small c && Reg.small x && Reg.small y
  | .eqi c x us => Reg.small c && Reg.small x && Us.ok us
  | .lss c x y => Reg.small c && Reg.small x && Reg.small y
  | .lsu c x y => Reg.small c && Reg.small x && Reg.small y
  | .and d x y => Reg.small d && Reg.small x && Reg.small y
  | .or d x y => Reg.small d && Reg.small x && Reg.small y
  | .xor d x y => Reg.small d && Reg.small x && Reg.small y
  | .not d src => Reg.small d && Reg.small src
  | .andnot d src => Reg.small d && Reg.small src
  | .shl d x y => Reg.small d && Reg.small x && Reg.small y
  | .shli d x bitp => Reg.small d && Reg.small x && Us.ok bitp
  | .shr d x y => Reg.small d && Reg.small x && Reg.small y
  | .shri d x bitp => Reg.small d && Reg.small x && Us.ok bitp
  | .ashr d x y => Reg.small d && Reg.small x && Reg.small y
  | .ashri d x bitp => Reg.small d && Reg.small x && Us.ok bitp
  | .mul d x y => Reg.small d && Reg.small x && Reg.small y
  | .divs d x y => Reg.small d && Reg.small x && Reg.small y
  | .divu d x y => Reg.small d && Reg.small x && Reg.small y
  | .rems d x y => Reg.small d && Reg.small x && Reg.small y
  | .remu d x y => Reg.small d && Reg.small x && Reg.small y
  | .mkmsk d src => Reg.small d && Reg.small src
  | .mkmski d bitp => Reg.small d && Us.ok bitp
  | .sext d src => Reg.small d && Reg.small src
  | .sexti d bitp => Reg.small d && Us.ok bitp
  | .zext d src => Reg.small d && Reg.small src
  | .zexti d bitp => Reg.small d && Us.ok bitp
  | .bitrev d src => Reg.small d && Reg.small src
  | .byterev d src => Reg.small d && Reg.small src
  | .clz d src => Reg.small d && Reg.small src
  | .brft c _ => Reg.small c
  | .brff c _ => Reg.small c
  | .brbt c _ => Reg.small c
  | .brbf c _ => Reg.small c
  | .brfu _ => true
  | .brbu _ => true
  | .bru src => Reg.small src
  | .bau src => Reg.small src
  | .blrf _ => true
  | .blrb _ => true
  | .bla src => Reg.small src
  | .blacp _ => true
  | .blat _ => true
  | .entsp _ => true
  | .retsp _ => true
  | .extsp _ => true
  | .extdp _ => true
  | .setsp src => Reg.small src
  | .setdp src => Reg.small src
  | .setcp src => Reg.small src
  | .getr d us => Reg.small d && Us.ok us
  | .freer r => Reg.small r
  | .setc r src => Reg.small r && Reg.small src
  | .setci r _ => Reg.small r
  | .tinitpc src t => Reg.small src && Reg.small t
  | .tinitsp src t => Reg.small src && Reg.small t
  | .tinitdp src t => Reg.small src && Reg.small t
  | .tinitcp src t => Reg.small src && Reg.small t
  | .tinitlr src t => Reg.small src && Reg.small t
  | .tsetr d src t => Reg.small d && Reg.small src && Reg.small t
  | .tsetmr d src => Reg.small d && Reg.small src
  | .getst d r => Reg.small d && Reg.small r
  | .tstart t => Reg.small t
  | .ssync => true
  | .msync r => Reg.small r
  | .mjoin r => Reg.small r
  | .freet => true
  | .getid => true
  | .setd r src => Reg.small r && Reg.small src
  | .getd d r => Reg.small d && Reg.small r
  | .setn r src => Reg.small r && Reg.small src
  | .getn d r => Reg.small d && Reg.small r
  | .outt r src => Reg.small r && Reg.small src
  | .outct r src => Reg.small r && Reg.small src
  | .outcti r us => Reg.small r && Us.ok us
  | .int d r => Reg.small d && Reg.small r
  | .inct d r => Reg.small d && Reg.small r
  | .chkct r src => Reg.small r && Reg.small src
  | .chkcti r us => Reg.small r && Us.ok us
  | .out r src => Reg.small r && Reg.small src
  | .in_ d r => Reg.small d && Reg.small r
  | .testct d r => Reg.small d && Reg.small r
  | .testwct d r => Reg.small d && Reg.small r
  | .testlcl d r => Reg.small d && Reg.small r
  | .setclk r src => Reg.small r && Reg.small src
  | .setrdy r src => Reg.small r && Reg.small src
  | .outshr r d => Reg.small r && Reg.small d
  | .inshr d r => Reg.small d && Reg.small r
  | .peek d r => Reg.small d && Reg.small r
  | .setpt r src => Reg.small r && Reg.small src
  | .clrpt r => Reg.small r
  | .getts d r => Reg.small d && Reg.small r
  | .settw r src => Reg.small r && Reg.small src
  | .setpsc r src => Reg.small r && Reg.small src
  | .endin d r => Reg.small d && Reg.small r
  | .outpw src r bitp => Reg.small src && Reg.small r && Us.ok bitp
  | .inpw d r bitp => Reg.small d && Reg.small r && Us.ok bitp
  | .syncr r => Reg.small r
  | .getsr _ => true
  | .setsr _ => true
  | .clrsr _ => true
  | .setv r => Reg.small r
  | .setev r => Reg.small r
  | .eet d r => Reg.small d && Reg.small r
  | .eef d r => Reg.small d && Reg.small r
  | .eeu r => Reg.small r
  | .edu r => Reg.small r
  | .clre => true
  | .waitet c => Reg.small c
  | .waitef c => Reg.small c
  | .waiteu => true
  | .ecallt c => Reg.small c
  | .ecallf c => Reg.small c
  | .kcall src => Reg.small src
  | .kcalli _ => true
  | .kret => true
  | .ldspc => true
  | .stspc => true
  | .ldssr => true
  | .stssr => true
  | .ldsed => true
  | .stsed => true
  | .ldet => true
  | .stet => true
  | .getet => true
  | .geted => true
  | .kentsp _ => true
  | .krestsp _ => true
  | .setkep => true
  | .getkep => true
  | .getksp => true
  | .dcall => true
  | .dret => true
  | .dentsp => true
  | .drestsp => true
  | .dgetreg src => Reg.small src
  | .getps d r => Reg.small d && Reg.small r
  | .setps r src => Reg.small r && Reg.small src
  | .ladd d e x y v => Reg.small d && Reg.small e && Reg.small x && Reg.small y && Reg.small v
  | .lsub d e x y v => Reg.small d && Reg.small e && Reg.small x && Reg.small y && Reg.small v
  | .ldivu d e x y v => Reg.small d && Reg.small e && Reg.small x && Reg.small y && Reg.small v
  | .lmul d e x y v w => Reg.small d && Reg.small e && Reg.small x && Reg.small y && Reg.small v && Reg.small w
  | .maccs d e x y => Reg.small d && Reg.small e && Reg.small x && Reg.small y
  | .maccu d e x y => Reg.small d && Reg.small e && Reg.small x && Reg.small y
  | .crc r d p => Reg.small r && Reg.small d && Reg.small p
  | .crc8 o r d p => Reg.small o && Reg.small r && Reg.small d && Reg.small p

end Sys2Proof
end

