-- ==== Sys2Proof/Certificates/Slice0/Obligations.lean ====
section
/-! DEFINITION. The statements for the provers. Each follows the rules of spec/ that its docstring names; the frames
(`becomes`, `stores`, `trapped`) stand in Sys2Proof/Safety.lean. -/
open Sys2Proof Sys2Proof.Machine

/-- R138 to R147: words of each family, as the spec prints them, read with R136's table. -/
def Obligations.DecodeWords : Prop :=
  decode .b defaultPairs 0x4806#16 0#16 = .ok (.ldw 0 1 2, 2) ∧
  decode .b defaultPairs 0x5CC2#16 0#16 = .ok (.ldwsp 3 2#16, 2) ∧
  decode .b defaultPairs 0x9015#16 0#16 = .ok (.addi 1 1 1, 2) ∧
  decode .b defaultPairs 0x7305#16 0#16 = .ok (.brfu 5#16, 2) ∧
  decode .b defaultPairs 0xF001#16 0xD800#16 = .ok (.ldapf 1024#20, 4) ∧
  decode .b defaultPairs 0x06D4#16 0#16 = .ok (.getst 1 0, 2) ∧
  decode .b defaultPairs 0x0ED4#16 0#16 = .ok (.outt 0 1, 2) ∧
  decode .b defaultPairs 0x86D4#16 0#16 = .ok (.inct 1 0, 2) ∧
  decode .b defaultPairs 0xFED4#16 0x0FEC#16 = .ok (.setclk 0 1, 4) ∧
  decode .b defaultPairs 0x07EC#16 0#16 = .ok (.waiteu, 2) ∧
  decode .b defaultPairs 0xF001#16 0x73E4#16 = .ok (.kcalli 100#16, 4) ∧
  decode .b defaultPairs 0x07FC#16 0#16 = .ok (.dcall, 2) ∧
  decode .b defaultPairs 0xF821#16 0xCFEC#16 = .ok (.remu 2 0 1, 4) ∧
  decode .b defaultPairs 0xF80B#16 0x0714#16 = .ok (.ladd 0 1 2 3 4, 4) ∧
  decode .b defaultPairs 0xF80B#16 0x0111#16 = .ok (.lmul 0 1 2 3 4 5, 4) ∧
  decode .b defaultPairs 0xF80B#16 0x07F1#16 = .ok (.maccu 0 1 2 3, 4) ∧
  decode .b defaultPairs 0xF80B#16 0x07E1#16 = .ok (.crc8 0 1 2 3, 4) ∧
  ∀ v < 9, pairCode defaultPairs v = if v ≤ 4 then ⟨27 + v, 0⟩ else ⟨22 + v, 1⟩

/-- No bit of an encoding is dropped: decode after encode is the identity (R130 to R164), with any table of the two-
operand field that R136 could decide on. -/
def Obligations.DecodeEncode : Prop :=
  ∀ (rev : Revision) (pairs : PairTable) (i : Instr), pairsOk pairs = true → i.wellFormed = true →
    inRevision rev i = true →
    (∃ w, encode pairs i = [w] ∧ ∀ w2, decode rev pairs w w2 = .ok (i, 2)) ∨
    (∃ w1 w2, encode pairs i = [w1, w2] ∧ decode rev pairs w1 w2 = .ok (i, 4))

/-- Nothing reserved falls through to an instruction with an operand out of range (R161, R162). -/
def Obligations.DecodedIsWellFormed : Prop :=
  ∀ (rev : Revision) (pairs : PairTable) (w1 w2 : Parcel) (i : Instr) (len : Nat),
    decode rev pairs w1 w2 = .ok (i, len) →
    i.wellFormed = true ∧ inRevision rev i = true ∧ len = if needsSecond w1.toNat then 4 else 2

/-- R651 c: issue fetches at the pc, advances it and executes what it fetched. -/
def Obligations.StepRunsDecoded : Prop :=
  ∀ (s : State) (t : Nat) (i : Instr) (len : Nat) (w1 w2 : Parcel),
    s.runnable t = true → (t = 0 → s.debugDue = false) → (∀ e ∈ s.stale, e.thread ≠ t) →
    legalPc s.plat (s.thr t).pc = true →
    (needsSecond w1.toNat = true → memValid s.plat ((s.thr t).pc + 2#32).toNat = true) →
    Memory.parcel s.mem (s.thr t).pc.toNat = w1 → Memory.parcel s.mem ((s.thr t).pc + 2#32).toNat = w2 →
    decode s.plat.revision s.plat.pairs w1 w2 = .ok (i, len) →
    (∀ rest, s.agenda = .issue t :: rest →
      step s = exec i { s with
        agenda := rest, tid := t, pcThis := (s.thr t).pc
        threads := s.threads.set t { s.thr t with pc := (s.thr t).pc + BitVec.ofNat 32 len } }) ∧
    (s.agenda = [] → s.turn = 0 → s.nextThread = some t →
      (∀ q ∈ s.allRefs, s.interruptOpen t q = false ∧ s.eventOpen t q = false) →
      step s = exec i { s with
        turn := 1, rr := t + 1, tid := t, pcThis := (s.thr t).pc
        threads := s.threads.set t { s.thr t with pc := (s.thr t).pc + BitVec.ofNat 32 len } })

/-- R664 and R665: what an issue raises before any instruction runs; R722 for an illegal BOOT_PC (log 50); the order
of the two causes of an EOPR parcel is the model's (log 52). -/
def Obligations.IssueTraps : Prop :=
  ∀ (s : State) (t : Nat) (rest : List Move), s.agenda = .issue t :: rest → s.runnable t = true →
    (t = 0 → s.debugDue = false) → (∀ e ∈ s.stale, e.thread ≠ t) →
    let pc := (s.thr t).pc
    let s0 := { s with agenda := rest, tid := t, pcThis := pc }
    let w1 := Memory.parcel s.mem pc.toNat
    let w2 := Memory.parcel s.mem (pc + 2#32).toNat
    (legalPc s.plat pc = false → ¬(t = 0 ∧ pc = s.plat.bootPc) → ∃ u, step s = .next u ∧ s0.trapped u 2#32 pc) ∧
    (legalPc s.plat pc = false → t = 0 → pc = s.plat.bootPc → step s = .refused .bootPcIllegal) ∧
    (legalPc s.plat pc = true → needsSecond w1.toNat = true → memValid s.plat (pc + 2#32).toNat = false →
      ∃ u, step s = .next u ∧ s0.trapped u 2#32 pc) ∧
    (legalPc s.plat pc = true → (needsSecond w1.toNat = true → memValid s.plat (pc + 2#32).toNat = true) →
      (∀ i len, decode s.plat.revision s.plat.pairs w1 w2 ≠ .ok (i, len)) →
      ∃ u, step s = .next u ∧ s0.trapped u 3#32 0#32)

/-- The invariant State.inv (R66, R402, R405, R407, R425; the canonical form of memory is the model's, log 4). -/
def Obligations.StepKeepsInv : Prop :=
  ∀ s t : State, s.inv = true → step s = .next t → t.inv = true

/-- State.inv at State.reset (R731). -/
def Obligations.ResetInv : Prop :=
  State.reset.inv = true

/-- The parameters of R10 are fixed for a machine. -/
def Obligations.StepKeepsMachine : Prop :=
  ∀ s t : State, step s = .next t → s.sameMachine t

/-- R721 to R731; the values of kep and of an unlisted byte are the model's (log 4, log 7). -/
def Obligations.ResetState : Prop :=
  (∀ n, (State.reset.thr n).inuse = decide (n = 0)) ∧ (∀ n, (State.reset.thr n).sr.toWord = 0#32) ∧
  State.reset.spaused = [] ∧ State.reset.mpaused = [] ∧
  (∀ n, (State.reset.timer n).inuse = false ∧ (State.reset.timer n).es.enb = false) ∧
  (∀ n, (State.reset.chan n).inuse = false ∧ (State.reset.chan n).inbuf = [] ∧ (State.reset.chan n).flight = []) ∧
  (∀ n, (State.reset.sync n).inuse = false) ∧ (∀ n, (State.reset.lock n).inuse = false) ∧
  (∀ n, (State.reset.clk n).inuse = false) ∧
  (∀ n, (State.reset.port n).inuse = false ∧ (State.reset.port n).driving = false) ∧
  State.reset.dbg.indbg = false ∧ (∀ a, State.reset.byte a = 0#8) ∧ State.reset.runnable 0 = true ∧
  (State.reset.thr 0).pc = State.reset.plat.bootPc ∧ (State.reset.thr 0).ksp = State.reset.plat.kspBoot ∧
  (State.reset.thr 0).kep = 0x10080#32 ∧
  ∀ (pl : Platform) (nthreads ntimers nchans nsyncs nlocks nclks : Nat) (ports : List Word) (image : List Host.Cell),
    let s := State.resetOn pl nthreads ntimers nchans nsyncs nlocks nclks ports image
    s.initial ∧ s.plat = pl ∧ s.mem = image ∧ s.ports.map Port.id = ports

/-- valid and inuse of R352 and R353, in numbers. -/
def Obligations.IdentifiersName : Prop :=
  ∀ (s : State) (r : Word),
    (∀ n, s.live r = some (.timer n) ↔ r.toNat = n * 256 + 1 ∧ n < 256 ∧ n < s.timers.length ∧ (s.timer n).inuse = true) ∧
    (∀ n, s.live r = some (.chan n) ↔
      r.toNat = (s.plat.nodeId.toNat * 256 + s.plat.coreId.toNat) * 65536 + n * 256 + 2 ∧ n < 256 ∧
        n < s.chans.length ∧ (s.chan n).inuse = true) ∧
    (∀ n, s.live r = some (.sync n) ↔ r.toNat = n * 256 + 3 ∧ n < 256 ∧ n < s.syncs.length ∧ (s.sync n).inuse = true) ∧
    (∀ n, s.live r = some (.thread n) ↔ r.toNat = n * 256 + 4 ∧ n < 256 ∧ n < s.threads.length ∧ (s.thr n).inuse = true) ∧
    (∀ n, s.live r = some (.lock n) ↔ r.toNat = n * 256 + 5 ∧ n < 256 ∧ n < s.locks.length ∧ (s.lock n).inuse = true) ∧
    (∀ n, s.live r = some (.clk n) ↔ r.toNat = n * 256 + 6 ∧ n < 256 ∧ n < s.clks.length ∧ (s.clk n).inuse = true) ∧
    (∀ n, s.live r = some (.port n) ↔ r.toNat % 256 = 0 ∧ r.toNat ≠ 0 ∧ n < s.ports.length ∧ (s.port n).id = r ∧
      (∀ m < n, (s.port m).id ≠ r) ∧ (s.port n).inuse = true)

/-- R204, R207, R208, R210, R212, R213, R216, R217, R220, R221, R224, R225. -/
def Obligations.AddressForms : Prop :=
  ∀ (s : State) (d b i : Reg) (us : Us) (u : BitVec 16) (w : BitVec 20),
    ∀ p ∈ ([(.ldawsp d u, d, s.x sp + u.setWidth 32 * 4#32), (.ldawdp d u, d, s.x dp + u.setWidth 32 * 4#32),
        (.ldawcp u, r11, s.x cp + u.setWidth 32 * 4#32), (.ldc d u, d, u.setWidth 32),
        (.ldapf w, r11, s.cur.pc + w.setWidth 32 * 2#32), (.ldapb w, r11, s.cur.pc - w.setWidth 32 * 2#32),
        (.ldawfi d b us, d, s.x b + word us.val * 4#32), (.ldawbi d b us, d, s.x b - word us.val * 4#32),
        (.ldawf d b i, d, s.x b + s.x i * 4#32), (.ldawb d b i, d, s.x b - s.x i * 4#32),
        (.lda16f d b i, d, s.x b + s.x i * 2#32), (.lda16b d b i, d, s.x b - s.x i * 2#32)] : List (Instr × Reg × Word)),
      ∃ t, exec p.1 s = .next t ∧ s.becomes t (s.cur.put p.2.1 p.2.2)

/-- R202, R205, R209, R211, R214, R218, R222, R226 with R94. -/
def Obligations.Loads : Prop :=
  ∀ (s : State) (d b i : Reg) (us : Us) (u : BitVec 16) (w : BitVec 20),
    (∀ p ∈ ([(.ldwsp d u, d, s.x sp + u.setWidth 32 * 4#32), (.ldwdp d u, d, s.x dp + u.setWidth 32 * 4#32),
        (.ldwcp d u, d, s.x cp + u.setWidth 32 * 4#32), (.ldwcpl w, r11, s.x cp + w.setWidth 32 * 4#32),
        (.ldwi d b us, d, s.x b + word us.val * 4#32), (.ldw d b i, d, s.x b + s.x i * 4#32)] : List (Instr × Reg × Word)),
      p.2.2.toNat % 4 = 0 → memValid s.plat p.2.2.toNat = true →
      ∃ t, exec p.1 s = .next t ∧ s.becomes t (s.cur.put p.2.1
        (s.byte (p.2.2.toNat + 3) ++ s.byte (p.2.2.toNat + 2) ++ s.byte (p.2.2.toNat + 1) ++ s.byte p.2.2.toNat))) ∧
    ((s.x b + s.x i * 2#32).toNat % 2 = 0 → memValid s.plat (s.x b + s.x i * 2#32).toNat = true →
      ∃ t, exec (.ld16s d b i) s = .next t ∧ s.becomes t (s.cur.put d
        ((s.byte ((s.x b + s.x i * 2#32).toNat + 1) ++ s.byte (s.x b + s.x i * 2#32).toNat).signExtend 32))) ∧
    (memValid s.plat (s.x b + s.x i).toNat = true →
      ∃ t, exec (.ld8u d b i) s = .next t ∧ s.becomes t (s.cur.put d ((s.byte (s.x b + s.x i).toNat).setWidth 32)))

/-- R203, R206, R215, R219, R223, R227 with R94 and R97. -/
def Obligations.Stores : Prop :=
  ∀ (s : State) (src b i : Reg) (us : Us) (u : BitVec 16), Memory.wf s.mem = true →
    ∀ p ∈ ([(.stwsp src u, s.x sp + u.setWidth 32 * 4#32, 4), (.stwdp src u, s.x dp + u.setWidth 32 * 4#32, 4),
        (.stwi src b us, s.x b + word us.val * 4#32, 4), (.stw src b i, s.x b + s.x i * 4#32, 4),
        (.st16 src b i, s.x b + s.x i * 2#32, 2), (.st8 src b i, s.x b + s.x i, 1)] : List (Instr × Word × Nat)),
      p.2.1.toNat % p.2.2 = 0 → memValid s.plat p.2.1.toNat = true → inRom s.plat p.2.1.toNat = false →
      ∃ t, exec p.1 s = .next t ∧ s.stores t s.cur p.2.1 p.2.2 (s.x src)

/-- R97 for every instruction that accesses memory. -/
def Obligations.AccessTraps : Prop :=
  ∀ (s : State) (d b i : Reg) (us : Us) (u : BitVec 16) (w : BitVec 20),
    (∀ p ∈ ([(.ldwsp d u, s.x sp + u.setWidth 32 * 4#32, 4), (.ldwdp d u, s.x dp + u.setWidth 32 * 4#32, 4),
        (.ldwcp d u, s.x cp + u.setWidth 32 * 4#32, 4), (.ldwcpl w, s.x cp + w.setWidth 32 * 4#32, 4),
        (.ldwi d b us, s.x b + word us.val * 4#32, 4), (.ldw d b i, s.x b + s.x i * 4#32, 4),
        (.ld16s d b i, s.x b + s.x i * 2#32, 2), (.ld8u d b i, s.x b + s.x i, 1),
        (.blacp w, s.x cp + w.setWidth 32 * 4#32, 4), (.blat u, s.x r11 + u.setWidth 32 * 4#32, 4),
        (.ldspc, s.x sp + 4#32, 4), (.ldssr, s.x sp + 8#32, 4), (.ldsed, s.x sp + 12#32, 4), (.ldet, s.x sp + 16#32, 4),
        (.krestsp u, s.x sp + u.setWidth 32 * 4#32, 4)] : List (Instr × Word × Nat)),
      p.2.1.toNat % p.2.2 ≠ 0 ∨ memValid s.plat p.2.1.toNat = false →
      ∃ t, exec p.1 s = .next t ∧ s.trapped t 5#32 p.2.1) ∧
    (u ≠ 0#16 → (s.x sp + u.setWidth 32 * 4#32).toNat % 4 ≠ 0 ∨ memValid s.plat (s.x sp + u.setWidth 32 * 4#32).toNat = false →
      ∃ t, exec (.retsp u) s = .next t ∧ s.trapped t 5#32 (s.x sp + u.setWidth 32 * 4#32)) ∧
    (∀ p ∈ ([(.stwsp d u, s.x sp + u.setWidth 32 * 4#32, 4), (.stwdp d u, s.x dp + u.setWidth 32 * 4#32, 4),
        (.stwi d b us, s.x b + word us.val * 4#32, 4), (.stw d b i, s.x b + s.x i * 4#32, 4),
        (.st16 d b i, s.x b + s.x i * 2#32, 2), (.st8 d b i, s.x b + s.x i, 1),
        (.stspc, s.x sp + 4#32, 4), (.stssr, s.x sp + 8#32, 4), (.stsed, s.x sp + 12#32, 4), (.stet, s.x sp + 16#32, 4),
        (.kentsp u, s.cur.ksp, 4)] : List (Instr × Word × Nat)),
      p.2.1.toNat % p.2.2 ≠ 0 ∨ memValid s.plat p.2.1.toNat = false ∨ inRom s.plat p.2.1.toNat = true →
      ∃ t, exec p.1 s = .next t ∧ s.trapped t 5#32 p.2.1) ∧
    (u ≠ 0#16 → (s.x sp).toNat % 4 ≠ 0 ∨ memValid s.plat (s.x sp).toNat = false ∨ inRom s.plat (s.x sp).toNat = true →
      ∃ t, exec (.entsp u) s = .next t ∧ s.trapped t 5#32 (s.x sp))

/-- R261 to R274, R281. -/
def Obligations.ArithmeticLogicCompare : Prop :=
  ∀ (s : State) (d x y : Reg) (us : Us),
    (∀ p ∈ ([(.add d x y, (s.x x).toNat + (s.x y).toNat), (.addi d x us, (s.x x).toNat + us.val),
        (.sub d x y, (s.x x).toNat - (s.x y).toNat), (.subi d x us, (s.x x).toNat - us.val),
        (.neg d x, - (s.x x).toNat), (.mul d x y, (s.x x).toNat * (s.x y).toNat)] : List (Instr × Int)),
      ∃ t v, exec p.1 s = .next t ∧ s.becomes t (s.cur.put d v) ∧ (v.toNat : Int) = p.2 % 2 ^ 32) ∧
    (∀ p ∈ ([(.and d x y, fun k => (s.x x).getLsbD k && (s.x y).getLsbD k),
        (.or d x y, fun k => (s.x x).getLsbD k || (s.x y).getLsbD k),
        (.xor d x y, fun k => (s.x x).getLsbD k != (s.x y).getLsbD k), (.not d x, fun k => !(s.x x).getLsbD k),
        (.andnot d x, fun k => (s.x d).getLsbD k && !(s.x x).getLsbD k)] : List (Instr × (Nat → Bool))),
      ∃ t v, exec p.1 s = .next t ∧ s.becomes t (s.cur.put d v) ∧ ∀ k < 32, v.getLsbD k = p.2 k) ∧
    ∀ p ∈ ([(.eq d x y, decide ((s.x x).toNat = (s.x y).toNat)), (.eqi d x us, decide ((s.x x).toNat = us.val)),
        (.lss d x y, decide ((s.x x).toInt < (s.x y).toInt)), (.lsu d x y, decide ((s.x x).toNat < (s.x y).toNat))] :
        List (Instr × Bool)),
      ∃ t, exec p.1 s = .next t ∧ s.becomes t (s.cur.put d (if p.2 then 1#32 else 0#32))

/-- R275 to R280, with the table of R150. -/
def Obligations.Shifts : Prop :=
  ∀ (s : State) (d x y : Reg) (b : Us),
    (∀ p ∈ ([(.shl d x y, (s.x y).toNat), (.shli d x b, bitp b)] : List (Instr × Nat)),
      ∃ t v, exec p.1 s = .next t ∧ s.becomes t (s.cur.put d v) ∧ v.toNat = (s.x x).toNat * 2 ^ p.2 % 2 ^ 32) ∧
    (∀ p ∈ ([(.shr d x y, (s.x y).toNat), (.shri d x b, bitp b)] : List (Instr × Nat)),
      ∃ t v, exec p.1 s = .next t ∧ s.becomes t (s.cur.put d v) ∧ v.toNat = (s.x x).toNat / 2 ^ p.2) ∧
    (∀ p ∈ ([(.ashr d x y, (s.x y).toNat), (.ashri d x b, bitp b)] : List (Instr × Nat)),
      ∃ t v, exec p.1 s = .next t ∧ s.becomes t (s.cur.put d v) ∧ v.toInt = (s.x x).toInt / 2 ^ p.2) ∧
    [bitp 0, bitp 1, bitp 2, bitp 3, bitp 4, bitp 5, bitp 6, bitp 7, bitp 8, bitp 9, bitp 10, bitp 11] =
      [32, 1, 2, 3, 4, 5, 6, 7, 8, 16, 24, 32]

/-- R282 to R285. -/
def Obligations.Division : Prop :=
  ∀ (s : State) (d x y : Reg), (s.x y).toNat ≠ 0 →
    (∀ p ∈ ([(.divu d x y, (s.x x).toNat / (s.x y).toNat), (.remu d x y, (s.x x).toNat % (s.x y).toNat)] : List (Instr × Nat)),
      ∃ t v, exec p.1 s = .next t ∧ s.becomes t (s.cur.put d v) ∧ v.toNat = p.2) ∧
    (¬((s.x x).toInt = -2147483648 ∧ (s.x y).toInt = -1) →
      ∀ p ∈ ([(.divs d x y, (s.x x).toInt.tdiv (s.x y).toInt), (.rems d x y, (s.x x).toInt.tmod (s.x y).toInt)] :
          List (Instr × Int)),
        ∃ t v, exec p.1 s = .next t ∧ s.becomes t (s.cur.put d v) ∧ v.toInt = p.2)

/-- R282 to R285 and R623. -/
def Obligations.ArithmeticTraps : Prop :=
  ∀ (s : State) (d e x y v : Reg),
    ((s.x y).toNat = 0 → ∀ i ∈ ([.divs d x y, .rems d x y, .divu d x y, .remu d x y] : List Instr),
      ∃ t, exec i s = .next t ∧ s.trapped t 7#32 0#32) ∧
    ((s.x x).toInt = -2147483648 → (s.x y).toInt = -1 → ∀ i ∈ ([.divs d x y, .rems d x y] : List Instr),
      ∃ t, exec i s = .next t ∧ s.trapped t 7#32 0#32) ∧
    ((s.x y).toNat ≤ (s.x v).toNat → ∃ t, exec (.ldivu d e x y v) s = .next t ∧ s.trapped t 7#32 0#32)

/-- R286 to R291, with the table of R150. -/
def Obligations.MasksAndExtensions : Prop :=
  ∀ (s : State) (d x : Reg) (b : Us),
    (∀ p ∈ ([(.mkmsk d x, (s.x x).toNat), (.mkmski d b, bitp b)] : List (Instr × Nat)),
      ∃ t v, exec p.1 s = .next t ∧ s.becomes t (s.cur.put d v) ∧ ∀ k < 32, v.getLsbD k = decide (k < p.2)) ∧
    (∀ p ∈ ([(.zext d x, (s.x x).toNat), (.zexti d b, bitp b)] : List (Instr × Nat)),
      ∃ t v, exec p.1 s = .next t ∧ s.becomes t (s.cur.put d v) ∧
        ∀ k < 32, v.getLsbD k = ((s.x d).getLsbD k && decide (p.2 = 0 ∨ k < p.2))) ∧
    (∀ p ∈ ([(.sext d x, (s.x x).toNat), (.sexti d b, bitp b)] : List (Instr × Nat)),
      ∃ t v, exec p.1 s = .next t ∧ s.becomes t (s.cur.put d v) ∧
        ∀ k < 32, v.getLsbD k = if p.2 = 0 ∨ k < p.2 then (s.x d).getLsbD k else (s.x d).getLsbD (p.2 - 1)) ∧
    [bitp 0, bitp 1, bitp 2, bitp 3, bitp 4, bitp 5, bitp 6, bitp 7, bitp 8, bitp 9, bitp 10, bitp 11] =
      [32, 1, 2, 3, 4, 5, 6, 7, 8, 16, 24, 32]

/-- R292 to R294. -/
def Obligations.BitReversals : Prop :=
  ∀ (s : State) (d x : Reg),
    (∃ t v, exec (.bitrev d x) s = .next t ∧ s.becomes t (s.cur.put d v) ∧
      ∀ k < 32, v.getLsbD k = (s.x x).getLsbD (31 - k)) ∧
    (∃ t v, exec (.byterev d x) s = .next t ∧ s.becomes t (s.cur.put d v) ∧
      ∀ k < 4, v.toNat / 256 ^ k % 256 = (s.x x).toNat / 256 ^ (3 - k) % 256) ∧
    (∃ t v, exec (.clz d x) s = .next t ∧ s.becomes t (s.cur.put d v) ∧ v.toNat ≤ 32 ∧
      (s.x x).toNat < 2 ^ (32 - v.toNat) ∧ (v.toNat < 32 → 2 ^ (31 - v.toNat) ≤ (s.x x).toNat))

/-- R311 to R323. -/
def Obligations.BranchesAndCalls : Prop :=
  ∀ (s : State) (c : Reg) (u : BitVec 16) (w : BitVec 20),
    (∀ p ∈ ([(.brft c u, if (s.x c).toNat ≠ 0 then s.cur.pc + u.setWidth 32 * 2#32 else s.cur.pc),
        (.brff c u, if (s.x c).toNat = 0 then s.cur.pc + u.setWidth 32 * 2#32 else s.cur.pc),
        (.brbt c u, if (s.x c).toNat ≠ 0 then s.cur.pc - u.setWidth 32 * 2#32 else s.cur.pc),
        (.brbf c u, if (s.x c).toNat = 0 then s.cur.pc - u.setWidth 32 * 2#32 else s.cur.pc),
        (.brfu u, s.cur.pc + u.setWidth 32 * 2#32), (.brbu u, s.cur.pc - u.setWidth 32 * 2#32),
        (.bru c, BitVec.ofInt 32 (s.cur.pc.toNat + 2 * (s.x c).toInt)), (.bau c, s.x c)] : List (Instr × Word)),
      ∃ t, exec p.1 s = .next t ∧ s.becomes t { s.cur with pc := p.2 }) ∧
    (∀ p ∈ ([(.blrf w, s.cur.pc + w.setWidth 32 * 2#32), (.blrb w, s.cur.pc - w.setWidth 32 * 2#32), (.bla c, s.x c)] :
        List (Instr × Word)),
      ∃ t, exec p.1 s = .next t ∧ s.becomes t { s.cur.put lr s.cur.pc with pc := p.2 }) ∧
    (∀ p ∈ ([(.blacp w, s.x cp + w.setWidth 32 * 4#32), (.blat u, s.x r11 + u.setWidth 32 * 4#32)] : List (Instr × Word)),
      p.2.toNat % 4 = 0 → memValid s.plat p.2.toNat = true →
      ∃ t, exec p.1 s = .next t ∧ s.becomes t { s.cur.put lr s.cur.pc with pc := s.memRead p.2 4 })

/-- R324 to R330. -/
def Obligations.StackFrames : Prop :=
  ∀ (s : State) (c : Reg) (u : BitVec 16),
    (∀ p ∈ ([(.extsp u, sp, s.x sp - u.setWidth 32 * 4#32), (.extdp u, dp, s.x dp - u.setWidth 32 * 4#32),
        (.setsp c, sp, s.x c), (.setdp c, dp, s.x c), (.setcp c, cp, s.x c)] : List (Instr × Reg × Word)),
      ∃ t, exec p.1 s = .next t ∧ s.becomes t (s.cur.put p.2.1 p.2.2)) ∧
    exec (.entsp 0#16) s = .next s ∧
    (∃ t, exec (.retsp 0#16) s = .next t ∧ s.becomes t { s.cur with pc := s.x lr }) ∧
    (u ≠ 0#16 → Memory.wf s.mem = true → (s.x sp).toNat % 4 = 0 → memValid s.plat (s.x sp).toNat = true →
      inRom s.plat (s.x sp).toNat = false →
      ∃ t, exec (.entsp u) s = .next t ∧ s.stores t (s.cur.put sp (s.x sp - u.setWidth 32 * 4#32)) (s.x sp) 4 (s.x lr)) ∧
    (u ≠ 0#16 → (s.x sp + u.setWidth 32 * 4#32).toNat % 4 = 0 →
      memValid s.plat (s.x sp + u.setWidth 32 * 4#32).toNat = true →
      ∃ t, exec (.retsp u) s = .next t ∧ s.becomes t
        { (s.cur.put sp (s.x sp + u.setWidth 32 * 4#32)).put lr (s.memRead (s.x sp + u.setWidth 32 * 4#32) 4) with
          pc := s.memRead (s.x sp + u.setWidth 32 * 4#32) 4 })

/-- R355: the lowest free resource is allocated; the identifiers are those of R351; that a lock has no recorded owner
is the model's (log 41). -/
def Obligations.Getr : Prop :=
  ∀ (s : State) (d : Reg) (k : Nat),
    (k < s.timers.length → (s.timer k).inuse = false → (∀ j < k, (s.timer j).inuse = true) →
      ∃ t x, exec (.getr d 1) s = .next t ∧
        t = { (s.withThr s.tid (s.cur.put d (word (k * 256 + 1)))).withTimerN k x with free := t.free } ∧
        x.inuse = true ∧ x.cond = .uncond ∧ x.es.enb = false ∧ x.es.iemode = .event ∧ x.waiter = none) ∧
    (k < s.chans.length → (s.chan k).inuse = false → (∀ j < k, (s.chan j).inuse = true) →
      ∃ t c, exec (.getr d 2) s = .next t ∧
        t = { (s.withThr s.tid (s.cur.put d
          (word ((s.plat.nodeId.toNat * 256 + s.plat.coreId.toNat) * 65536 + k * 256 + 2)))).withChanN k c with
            free := t.free } ∧
        c.inuse = true ∧ c.destset = false ∧ c.es.enb = false ∧ c.es.iemode = .event ∧ c.inbuf = [] ∧ c.flight = [] ∧
        c.route = false ∧ c.inmsg = false ∧ c.owner = none ∧ c.waiterIn = none ∧ c.waiterOut = none) ∧
    (k < s.syncs.length → (s.sync k).inuse = false → (∀ j < k, (s.sync j).inuse = true) →
      exec (.getr d 3) s = .next ((s.withThr s.tid (s.cur.put d (word (k * 256 + 3)))).withSyncN k
        { s.sync k with inuse := true, slaves := [], msyn := false, mjoin := false })) ∧
    (k < s.threads.length → (s.thr k).inuse = false → (∀ j < k, (s.thr j).inuse = true) → s.cur.inuse = true →
      ∃ t, exec (.getr d 4) s = .next t ∧
        t = { (s.withThr k { s.thr k with inuse := true, sr := SR.ofWord 0#32, syn := none }).withThr s.tid
          (s.cur.put d (word (k * 256 + 4))) with spaused := t.spaused } ∧
        ∀ j, j ∈ t.spaused ↔ j = k ∨ j ∈ s.spaused) ∧
    (k < s.locks.length → (s.lock k).inuse = false → (∀ j < k, (s.lock j).inuse = true) →
      exec (.getr d 5) s = .next ((s.withThr s.tid (s.cur.put d (word (k * 256 + 5)))).withLockN k
        { s.lock k with inuse := true, held := false, owner := none, queue := [] })) ∧
    ∀ us : Us, ((us = 1 ∧ ∀ k < s.timers.length, (s.timer k).inuse = true) ∨
      (us = 2 ∧ ∀ k < s.chans.length, (s.chan k).inuse = true) ∨ (us = 3 ∧ ∀ k < s.syncs.length, (s.sync k).inuse = true) ∨
      (us = 4 ∧ ∀ k < s.threads.length, (s.thr k).inuse = true) ∨
      (us = 5 ∧ ∀ k < s.locks.length, (s.lock k).inuse = true) ∨ us.val = 0 ∨ 5 < us.val) →
      ∃ t, exec (.getr d us) s = .next t ∧ s.becomes t (s.cur.put d 0#32)

/-- R356 with the common checks of R354; which waiting record names the thread is the model's (log 46). -/
def Obligations.Freer : Prop :=
  ∀ (s : State) (r : Reg) (n : Nat),
    (s.live (s.x r) = some (.timer n) → exec (.freer r) s =
      .next (s.withTimerN n { s.timer n with inuse := false, es := { (s.timer n).es with enb := false } })) ∧
    (s.live (s.x r) = some (.sync n) → exec (.freer r) s = .next (s.withSyncN n { s.sync n with inuse := false })) ∧
    (s.live (s.x r) = some (.lock n) → exec (.freer r) s = .next (s.withLockN n { s.lock n with inuse := false })) ∧
    (s.live (s.x r) = some (.thread n) → n ∈ s.spaused →
      exec (.freer r) s = .next (s.withThr n { s.thr n with inuse := false })) ∧
    (s.live (s.x r) = some (.thread n) → n ∉ s.spaused → ∃ t, exec (.freer r) s = .next t ∧ s.trapped t 4#32 (s.x r)) ∧
    (s.live (s.x r) = some (.chan n) → (s.chan n).route = false → (s.chan n).inmsg = false → (s.chan n).inbuf = [] →
      (s.chan n).waiterIn = none → (s.chan n).waiterOut = none →
      if (s.chan n).flight = [] then exec (.freer r) s =
        .next (s.withChanN n { s.chan n with inuse := false, es := { (s.chan n).es with enb := false } })
      else exec (.freer r) s =
        .next ((s.withThr s.tid s.waitingCur).withChanN n { s.chan n with waiterOut := some s.tid })) ∧
    (s.live (s.x r) = some (.chan n) → (s.chan n).route = true ∨ (s.chan n).inmsg = true ∨ (s.chan n).inbuf ≠ [] ∨
      (s.chan n).waiterIn ≠ none ∨ (s.chan n).waiterOut ≠ none →
      ∃ t, exec (.freer r) s = .next t ∧ s.trapped t 4#32 (s.x r)) ∧
    (s.live (s.x r) = none ∨ s.live (s.x r) = some (.port n) ∨ s.live (s.x r) = some (.clk n) →
      ∃ t, exec (.freer r) s = .next t ∧ s.trapped t 4#32 (s.x r))

/-- R357 and R358 on ports, with the mode table of R452; the shift count of BUF_NOBUFFERS is the model's (log 23). -/
def Obligations.SetcOnPorts : Prop :=
  ∀ (s : State) (r src : Reg) (u : BitVec 16) (n : Nat), s.live (s.x r) = some (.port n) →
    let p := s.port n
    (∀ q ∈ ([(0x0000, { p with inuse := false, driving := false, es := { p.es with enb := false } }), (0x0001, { p with cond := .uncond }),
      (0x0011, { p with cond := .eq }), (0x0019, { p with cond := .neq }),
      (0x0002, { p with es := { p.es with iemode := .event } }), (0x000A, { p with es := { p.es with iemode := .interrupt } }),
      (0x0003, { p with modes := { p.modes with drive := .drive } }), (0x000B, { p with modes := { p.modes with drive := .pullDown } }),
      (0x0013, { p with modes := { p.modes with drive := .pullUp } }), (0x0007, { p with running := false }),
      (0x1007, { p with modes := { p.modes with msmode := .master } }), (0x100F, { p with modes := { p.modes with msmode := .slave } }),
      (0x2007, { p with modes := { p.modes with bufmode := .synchronised }, trwidth := p.width, shiftcount := p.width }),
      (0x200F, { p with modes := { p.modes with bufmode := .buffered } }),
      (0x3007, { p with modes := { p.modes with rdymode := .noReady } }), (0x300F, { p with modes := { p.modes with rdymode := .strobed } }),
      (0x3017, { p with modes := { p.modes with rdymode := .handshaken } }), (0x4007, { p with modes := { p.modes with sdelay := .noSDelay } }),
      (0x400F, { p with modes := { p.modes with sdelay := .sDelay } }), (0x5007, { p with modes := { p.modes with porttype := .dataPort } }),
      (0x6007, { p with modes := { p.modes with invert := .noInvert } })] : List (Nat × Port)),
      ((s.x src).toNat = q.1 → exec (.setc r src) s = .next (s.withPortN n q.2)) ∧
      (u.toNat = q.1 → exec (.setci r u) s = .next (s.withPortN n q.2))) ∧
    (p.width = 1 → ∀ q ∈ ([(0x500F, { p with modes := { p.modes with porttype := .clockPort } }),
        (0x5017, { p with modes := { p.modes with porttype := .readyPort } }),
        (0x600F, { p with modes := { p.modes with invert := .invert } })] : List (Nat × Port)),
      ((s.x src).toNat = q.1 → exec (.setc r src) s = .next (s.withPortN n q.2)) ∧
      (u.toNat = q.1 → exec (.setci r u) s = .next (s.withPortN n q.2)))

/-- R452 and R466 for the modes that start, clear and switch on a port; `held` and `inputting` are the model's (log
20), and so are `rdyport` after INUSE_ON (log 38) and the shift count after RUN_STARTR (log 23). -/
def Obligations.PortRunModes : Prop :=
  ∀ (s : State) (r : Reg) (n : Nat), s.lookup (s.x r) = some (.port n) →
    (∃ t p, exec (.setci r 0x0008#16) s = .next t ∧ t = { s.withPortN n p with free := t.free } ∧
      p.id = (s.port n).id ∧ p.inuse = true ∧ p.running = true ∧ p.held = true ∧ p.inputting = false ∧ p.modes = s.plat.portDefaults ∧ p.cond = s.plat.portCond ∧ p.es.enb = false ∧
      p.es.iemode = s.plat.portIemode ∧ p.waiter = none ∧ p.trfull = false ∧ p.sfill = 0 ∧ p.trwidth = p.width ∧
      p.shiftcount = p.width ∧ p.direction = .input ∧ p.driving = false ∧ p.porttimeset = false ∧
      p.clk = s.plat.refClkId ∧ p.rdyport = none ∧ p.ext = (s.port n).ext) ∧
    ((s.port n).inuse = true →
      (∃ t x, exec (.setci r 0x0017#16) s = .next t ∧ t = { s.withPortN n { s.port n with
          trfull := false, sfill := 0, shift := x, shiftcount := (s.port n).trwidth } with free := t.free }) ∧
      ((s.port n).modes.bufmode = .buffered →
        ∃ t x, exec (.setci r 0x000F#16) s = .next t ∧ t = { s.withPortN n { s.port n with
          trfull := false, sfill := 0, shift := x, running := true, direction := .input, inputting := false } with
            free := t.free }) ∧
      ((s.port n).modes.bufmode = .synchronised →
        ∃ t, exec (.setci r 0x000F#16) s = .next t ∧
          t = { s.withPortN n { s.port n with running := true } with free := t.free }))

/-- R357 with the mode table of R452; `count` and `srcLevel` of a clock block are the model's (log 18); R357 or R466
for INUSE_OFF of a port that is off (log 47). -/
def Obligations.SetcOnOthers : Prop :=
  ∀ (s : State) (r src : Reg) (u : BitVec 16) (n : Nat),
    (s.x src = u.setWidth 32 → exec (.setci r u) s = exec (.setc r src) s) ∧
    (s.live (s.x r) = some (.timer n) →
      ∀ q ∈ ([(0x0001, { s.timer n with cond := .uncond }), (0x0009, { s.timer n with cond := .after }),
          (0x0002, { s.timer n with es := { (s.timer n).es with iemode := .event } }),
          (0x000A, { s.timer n with es := { (s.timer n).es with iemode := .interrupt } })] : List (Nat × Timer)),
        (s.x src).toNat = q.1 → exec (.setc r src) s = .next (s.withTimerN n q.2)) ∧
    (s.live (s.x r) = some (.chan n) →
      ∀ q ∈ ([(0x0002, { s.chan n with es := { (s.chan n).es with iemode := .event } }),
          (0x000A, { s.chan n with es := { (s.chan n).es with iemode := .interrupt } })] : List (Nat × Chanend)),
        (s.x src).toNat = q.1 → exec (.setc r src) s = .next (s.withChanN n q.2)) ∧
    (s.lookup (s.x r) = some (.clk n) →
      ((s.x src).toNat = 0x0000 → exec (.setc r src) s = .next (s.withClkN n { s.clk n with inuse := false })) ∧
      ((s.x src).toNat = 0x0008 → exec (.setc r src) s = .next (s.withClkN n { s.clk n with
        inuse := true, running := false, source := s.plat.refClkId, div := 0#8, rdysrc := none, count := 0 })) ∧
      ((s.clk n).inuse = true →
        ((s.x src).toNat = 0x0007 → exec (.setc r src) s = .next (s.withClkN n { s.clk n with running := false })) ∧
        ((s.x src).toNat = 0x000F → exec (.setc r src) s = .next (s.withClkN n { s.clk n with running := true })))) ∧
    (s.lookup (s.x r) = some (.port n) → (s.port n).inuse = false → (s.x src).toNat = 0x0000 →
      s.plat.offNeedsInuse = false → exec (.setc r src) s = .next (s.withPortN n
        { s.port n with inuse := false, driving := false, es := { (s.port n).es with enb := false } })) ∧
    (((s.x src).toNat ∉ [0x0000, 0x0008, 0x0001, 0x0009, 0x0011, 0x0019, 0x0002, 0x000A, 0x0003, 0x000B, 0x0013, 0x0007,
          0x000F, 0x0017, 0x1007, 0x100F, 0x2007, 0x200F, 0x3007, 0x300F, 0x3017, 0x4007, 0x400F, 0x5007, 0x500F, 0x5017,
          0x6007, 0x600F] ∨
        ((s.x src).toNat ∉ [0x0001, 0x0009, 0x0002, 0x000A] ∧ s.lookup (s.x r) = some (.timer n)) ∨
        ((s.x src).toNat ∉ [0x0002, 0x000A] ∧ s.lookup (s.x r) = some (.chan n)) ∨
        ((s.x src).toNat ∉ [0x0000, 0x0008, 0x0007, 0x000F] ∧ s.lookup (s.x r) = some (.clk n)) ∨
        ((s.x src).toNat = 0x0009 ∧ s.lookup (s.x r) = some (.port n)) ∨
        ((s.x src).toNat = 0x0000 ∧ s.lookup (s.x r) = some (.port n) ∧ (s.port n).inuse = false ∧
          s.plat.offNeedsInuse = true) ∨
        ((s.x src).toNat ∈ [0x500F, 0x5017, 0x600F] ∧ s.lookup (s.x r) = some (.port n) ∧ (s.port n).width ≠ 1) ∨
        s.lookup (s.x r) = some (.lock n) ∨ s.lookup (s.x r) = some (.sync n) ∨ s.lookup (s.x r) = some (.thread n) ∨
        ((s.x src).toNat ≠ 0x0000 ∧ (s.x src).toNat ≠ 0x0008 ∧ s.live (s.x r) = none) ∨ s.lookup (s.x r) = none) →
      ∃ t, exec (.setc r src) s = .next t ∧ s.trapped t 4#32 (s.x r))

/-- R370 to R375. -/
def Obligations.ThreadSetup : Prop :=
  ∀ (s : State) (d src t : Reg) (n : Nat),
    (s.live (s.x t) = some (.thread n) →
      exec (.tsetr d src t) s = .next (s.withThr n ((s.thr n).put d (s.x src)))) ∧
    (s.live (s.x t) = some (.thread n) → n ∈ s.spaused →
      (∃ u, exec (.tinitpc src t) s = .next u ∧
        u = s.withThr n { s.thr n with pc := s.x src }) ∧
      exec (.tinitsp src t) s = .next (s.withThr n ((s.thr n).put sp (s.x src))) ∧
      exec (.tinitdp src t) s = .next (s.withThr n ((s.thr n).put dp (s.x src))) ∧
      exec (.tinitcp src t) s = .next (s.withThr n ((s.thr n).put cp (s.x src))) ∧
      exec (.tinitlr src t) s = .next (s.withThr n ((s.thr n).put lr (s.x src)))) ∧
    (((∀ m, s.live (s.x t) ≠ some (.thread m)) ∨ (s.live (s.x t) = some (.thread n) ∧ n ∉ s.spaused)) →
      ∀ i ∈ ([.tinitpc src t, .tinitsp src t, .tinitdp src t, .tinitcp src t, .tinitlr src t, .tstart t] : List Instr),
        ∃ u, exec i s = .next u ∧ s.trapped u 4#32 (s.x t)) ∧
    ((∀ m, s.live (s.x t) ≠ some (.thread m)) → ∃ u, exec (.tsetr d src t) s = .next u ∧ s.trapped u 4#32 (s.x t))

/-- R376 and R377. -/
def Obligations.GetstTsetmr : Prop :=
  ∀ (s : State) (d r src : Reg) (k j : Nat),
    (s.live (s.x r) = some (.sync k) → s.cur.inuse = true → j < s.threads.length → (s.thr j).inuse = false →
      (∀ q < j, (s.thr q).inuse = true) →
      ∃ t y, exec (.getst d r) s = .next t ∧
        t = { ((s.withThr j { s.thr j with inuse := true, sr := SR.ofWord 0#32, syn := some k }).withThr s.tid
          (s.cur.put d (word (j * 256 + 4)))).withSyncN k { s.sync k with slaves := y, mstr := s.tid } with
            spaused := t.spaused } ∧
        (∀ q, q ∈ t.spaused ↔ q = j ∨ q ∈ s.spaused) ∧ ∀ q, q ∈ y ↔ q = j ∨ q ∈ (s.sync k).slaves) ∧
    (s.live (s.x r) = some (.sync k) → (∀ q < s.threads.length, (s.thr q).inuse = true) →
      ∃ t, exec (.getst d r) s = .next t ∧ s.becomes t (s.cur.put d 0#32)) ∧
    (s.cur.syn = some k → (s.sync k).inuse = true → s.tid ∈ (s.sync k).slaves → (s.thr (s.sync k).mstr).inuse = true →
      exec (.tsetmr d src) s = .next (s.withThr (s.sync k).mstr ((s.thr (s.sync k).mstr).put d (s.x src)))) ∧
    (s.cur.syn = some k → (s.sync k).inuse = true → s.tid ∈ (s.sync k).slaves → (s.thr (s.sync k).mstr).inuse = false →
      ∃ t, exec (.tsetmr d src) s = .next t ∧ s.trapped t 4#32 (word ((s.sync k).mstr * 256 + 4)))

/-- R379, R384, R385; the waiters are those of R61. -/
def Obligations.ThreadStartEnd : Prop :=
  ∀ s : State,
    exec .freet s = .next (s.withThr s.tid { s.cur with inuse := false }) ∧
    (∃ t, exec .getid s = .next t ∧ s.becomes t (s.cur.put r11 (BitVec.ofNat 32 s.tid))) ∧
    ∀ (t : Reg) (n : Nat), s.live (s.x t) = some (.thread n) → n ∈ s.spaused →
    (legalPc s.plat (s.thr n).pc = true → ∃ u, exec (.tstart t) s = .next u ∧
      u = { s.withThr n { s.thr n with sr := { (s.thr n).sr with waiting := false } } with
        spaused := s.spaused.filter (· != n)
        stale := u.stale
        ports := s.ports.map fun p => { p with waiter := if p.waiter = some n then none else p.waiter }
        timers := s.timers.map fun x => { x with waiter := if x.waiter = some n then none else x.waiter }
        chans := s.chans.map fun c => { c with
          waiterIn := if c.waiterIn = some n then none else c.waiterIn
          waiterOut := if c.waiterOut = some n then none else c.waiterOut } } ∧
      ∀ e ∈ u.stale, e ∈ s.stale) ∧
    (legalPc s.plat (s.thr n).pc = false → ∃ u, exec (.tstart t) s = .next u ∧ s.trapped u 2#32 (s.thr n).pc)

/-- R380; that the slave that ends a join may be in an interrupt is the model's (log 29). -/
def Obligations.SlaveBarrier : Prop :=
  ∀ (s : State) (k : Nat), s.cur.syn = some k → (s.sync k).inuse = true → s.tid ∈ (s.sync k).slaves →
    k < s.syncs.length → s.tid < s.threads.length →
    let y := s.sync k
    let last := y.slaves.filter (fun q => !s.spaused.contains q) = [s.tid] ∧ y.msyn = true
    (last → y.mjoin = false → ∃ t, exec .ssync s = .next t ∧
      t = { (s.withThr s.tid { s.cur with sr := { s.cur.sr with eeble := false } }).withSyncN k { y with msyn := false } with
        spaused := s.spaused.filter fun q => !y.slaves.contains q
        mpaused := s.mpaused.filter fun q => q != y.mstr
        stale := t.stale } ∧ ∀ e ∈ t.stale, e ∈ s.stale) ∧
    (last → y.mjoin = true → ∃ t, exec .ssync s = .next t ∧
      t = { s.withSyncN k { y with msyn := false, mjoin := false, slaves := [] } with
        threads := t.threads
        mpaused := s.mpaused.filter fun q => q != y.mstr } ∧ t.threads.length = s.threads.length ∧
      ∀ q < s.threads.length, q ≠ s.tid → t.thr q = if q ∈ y.slaves then { s.thr q with inuse := false } else s.thr q) ∧
    (last → y.mjoin = true → ∃ t, exec .ssync s = .next t ∧
      t.thr s.tid = { s.cur with inuse := false, sr := { s.cur.sr with eeble := false } }) ∧
    (¬last → s.cur.sr.inint = false → ∃ t, exec .ssync s = .next t ∧
      t = { s.withThr s.tid { s.cur with sr := { s.cur.sr with eeble := false } } with spaused := t.spaused } ∧ ∀ q, q ∈ t.spaused ↔ q = s.tid ∨ q ∈ s.spaused)

/-- R381 and R383; which old parcels MSYNC drops is the model's (log 13). -/
def Obligations.MasterBarrier : Prop :=
  ∀ (s : State) (r : Reg) (k : Nat), s.live (s.x r) = some (.sync k) → s.tid < s.threads.length →
    let y := s.sync k
    let allPaused := ∀ q ∈ y.slaves, q ∈ s.spaused
    (allPaused → (∀ q ∈ y.slaves, legalPc s.plat (s.thr q).pc = true) → ∃ t, exec (.msync r) s = .next t ∧
      t = { s.withThr s.tid { s.cur with sr := { s.cur.sr with eeble := false } } with
        spaused := s.spaused.filter fun q => !y.slaves.contains q
        stale := t.stale } ∧ ∀ e ∈ t.stale, e ∈ s.stale) ∧
    (allPaused → (∃ q ∈ y.slaves, legalPc s.plat (s.thr q).pc = false) → ∃ t q, exec (.msync r) s = .next t ∧
      q ∈ y.slaves ∧ legalPc s.plat (s.thr q).pc = false ∧ (∀ j ∈ y.slaves, legalPc s.plat (s.thr j).pc = false → q ≤ j) ∧
      s.trapped t 2#32 (s.thr q).pc) ∧
    (allPaused → ∃ t, exec (.mjoin r) s = .next t ∧
      t = { s.withSyncN k { y with slaves := [], mjoin := false } with threads := t.threads } ∧
      t.threads.length = s.threads.length ∧
      t.thr s.tid = { s.cur with
        inuse := s.cur.inuse && decide (s.tid ∉ y.slaves), sr := { s.cur.sr with eeble := false } } ∧
      ∀ q, q ≠ s.tid → t.thr q = if q ∈ y.slaves then { s.thr q with inuse := false } else s.thr q) ∧
    (¬allPaused → s.cur.sr.inint = false →
      (∃ t, exec (.msync r) s = .next t ∧
        t = { (s.withThr s.tid { s.cur with sr := { s.cur.sr with eeble := false } }).withSyncN k { y with msyn := true } with mpaused := t.mpaused } ∧
        ∀ q, q ∈ t.mpaused ↔ q = s.tid ∨ q ∈ s.mpaused) ∧
      (∃ t, exec (.mjoin r) s = .next t ∧
        t = { (s.withThr s.tid { s.cur with sr := { s.cur.sr with eeble := false } }).withSyncN k { y with msyn := true, mjoin := true } with mpaused := t.mpaused } ∧
        ∀ q, q ∈ t.mpaused ↔ q = s.tid ∨ q ∈ s.mpaused))

/-- R376, R380, R521, R592: the steps a model must not take. -/
def Obligations.SpecRefusals : Prop :=
  ∀ (s : State) (d src r : Reg) (u : BitVec 16) (k : Nat),
    (s.cur.syn = none → exec .ssync s = .refused .noSynchroniser ∧ exec (.tsetmr d src) s = .refused .noSynchroniser) ∧
    (s.cur.syn = some k → (s.sync k).inuse = false ∨ s.tid ∉ (s.sync k).slaves →
      exec .ssync s = .refused .noSynchroniser ∧ exec (.tsetmr d src) s = .refused .noSynchroniser) ∧
    (s.cur.syn = some k → (s.sync k).inuse = true → s.tid ∈ (s.sync k).slaves → s.cur.sr.inint = true →
      ¬((s.sync k).slaves.filter (fun q => !s.spaused.contains q) = [s.tid] ∧ (s.sync k).msyn = true) →
      exec .ssync s = .refused .syncInInterrupt) ∧
    (s.live (s.x r) = some (.sync k) → s.cur.sr.inint = true → (∃ q ∈ (s.sync k).slaves, q ∉ s.spaused) →
      exec (.msync r) s = .refused .syncInInterrupt ∧ exec (.mjoin r) s = .refused .syncInInterrupt) ∧
    (u.getLsbD 3 = true ∨ u.getLsbD 5 = true ∨ u.getLsbD 6 = true →
      exec (.setsr u) s = .refused .srMask ∧ exec (.clrsr u) s = .refused .srMask) ∧
    (s.dbg.indbg = true ∨ (s.thr 0).inuse = false ∨ 0 ∈ s.spaused ∨ 0 ∈ s.mpaused →
      exec .dcall s = .refused .debugEntryUndefined)

/-- R420 to R423 and R459; that the divider keeps its count is the model's (log 18). -/
def Obligations.ResourceData : Prop :=
  ∀ (s : State) (d r src : Reg) (n : Nat),
    (s.live (s.x r) = some (.port n) → exec (.setd r src) s = .next (s.withPortN n { s.port n with data := s.x src }) ∧
      ∃ t, exec (.getd d r) s = .next t ∧ s.becomes t (s.cur.put d (s.port n).data)) ∧
    (s.live (s.x r) = some (.timer n) → exec (.setd r src) s = .next (s.withTimerN n { s.timer n with data := s.x src }) ∧
      ∃ t, exec (.getd d r) s = .next t ∧ s.becomes t (s.cur.put d (s.timer n).data)) ∧
    (s.live (s.x r) = some (.chan n) →
      ((s.x src).toNat % 256 = 2 ∨ (s.x src).toNat % 256 = 12 →
        exec (.setd r src) s = .next (s.withChanN n { s.chan n with dest := s.x src, destset := true })) ∧
      ((s.x src).toNat % 256 ≠ 2 → (s.x src).toNat % 256 ≠ 12 →
        ∃ t, exec (.setd r src) s = .next t ∧ s.trapped t 4#32 (s.x r)) ∧
      (∃ t, exec (.getd d r) s = .next t ∧ s.becomes t (s.cur.put d (s.chan n).dest)) ∧
      exec (.setn r src) s = .next (s.withChanN n { s.chan n with net := s.x src }) ∧
      ∃ t, exec (.getn d r) s = .next t ∧ s.becomes t (s.cur.put d (s.chan n).net)) ∧
    (s.live (s.x r) = some (.clk n) →
      ((s.clk n).running = false →
        exec (.setd r src) s = .next (s.withClkN n { s.clk n with div := BitVec.ofNat 8 (s.x src).toNat })) ∧
      ((s.clk n).running = true → ∃ t, exec (.setd r src) s = .next t ∧ s.trapped t 4#32 (s.x r)) ∧
      ∃ t, exec (.getd d r) s = .next t ∧ s.becomes t (s.cur.put d (BitVec.ofNat 32 (s.clk n).div.toNat))) ∧
    (s.live (s.x r) = some (.lock n) ∨ s.live (s.x r) = some (.sync n) ∨ s.live (s.x r) = some (.thread n) →
      ∀ i ∈ ([.setd r src, .getd d r] : List Instr), ∃ t, exec i s = .next t ∧ s.trapped t 4#32 (s.x r))

/-- R424 to R426 and R431, with the routes of R407; which of two checks of OUTCT goes first is the platform's (log
49). -/
def Obligations.Outputs : Prop :=
  ∀ (s : State) (r src : Reg) (us : Us) (n : Nat), s.live (s.x r) = some (.chan n) →
    let sent := fun (ts : List Token) (open' : Bool) => s.withChanN n { s.chan n with
      flight := (s.chan n).flight ++ ts.map fun k => (if (s.chan n).route then (s.chan n).routedest else (s.chan n).dest, k)
      routedest := if (s.chan n).route then (s.chan n).routedest else (s.chan n).dest
      route := open' }
    let dataByte := fun k => (⟨false, BitVec.ofNat 8 ((s.x src).toNat / 256 ^ k)⟩ : Token)
    ((s.chan n).destset = true → (s.chan n).flight.length + 1 ≤ s.plat.flightCap →
      exec (.outt r src) s = .next (sent [dataByte 0] true) ∧
      (∀ p ∈ ([(.outct r src, BitVec.ofNat 8 (s.x src).toNat), (.outcti r us, BitVec.ofNat 8 us.val)] : List (Instr × Byte)),
        p.2.toNat < 192 ∨ (p.2.toNat < 224 ∧ (s.cur.sr.ink = true ∨ s.plat.privTrap = none)) →
        exec p.1 s = .next (sent [⟨true, p.2⟩] (decide (p.2.toNat ≠ 1 ∧ p.2.toNat ≠ 2))))) ∧
    ((s.chan n).destset = true → (s.chan n).flight.length + 4 ≤ s.plat.flightCap →
      exec (.out r src) s = .next (sent [dataByte 3, dataByte 2, dataByte 1, dataByte 0] true)) ∧
    ((s.chan n).destset = false →
      (∀ i ∈ ([.outt r src, .outcti r us, .out r src] : List Instr), ∃ t, exec i s = .next t ∧ s.trapped t 1#32 (s.x r)) ∧
      let first := s.plat.valueFirst = true ∧ 192 ≤ (s.x src).toNat % 256 ∧ (s.x src).toNat % 256 < 224 ∧
        s.cur.sr.ink = false ∧ s.plat.privTrap = some .illegalResource
      (¬first → ∃ t, exec (.outct r src) s = .next t ∧ s.trapped t 1#32 (s.x r)) ∧
      (first → ∃ t, exec (.outct r src) s = .next t ∧ s.trapped t 4#32 (s.x r))) ∧
    ((s.chan n).destset = true →
      (224 ≤ (s.x src).toNat % 256 → ∃ t, exec (.outct r src) s = .next t ∧ s.trapped t 1#32 (s.x r)) ∧
      (192 ≤ (s.x src).toNat % 256 → (s.x src).toNat % 256 < 224 → s.cur.sr.ink = false →
        ∀ e, s.plat.privTrap = some e → ∃ t, exec (.outct r src) s = .next t ∧ s.trapped t (ExcType.code e) (s.x r)) ∧
      ((s.x src).toNat % 256 < 192 ∨ ((s.x src).toNat % 256 < 224 ∧ (s.cur.sr.ink = true ∨ s.plat.privTrap = none)) →
        s.plat.flightCap < (s.chan n).flight.length + 1 → exec (.outct r src) s =
          .next ((s.withThr s.tid s.waitingCur).withChanN n { s.chan n with waiterOut := some s.tid })) ∧
      ∀ p ∈ ([(.outt r src, 1), (.outcti r us, 1), (.out r src, 4)] : List (Instr × Nat)),
        s.plat.flightCap < (s.chan n).flight.length + p.2 →
        exec p.1 s = .next ((s.withThr s.tid s.waitingCur).withChanN n { s.chan n with waiterOut := some s.tid }))

/-- R427 to R430. -/
def Obligations.TokenInputs : Prop :=
  ∀ (s : State) (d r src : Reg) (us : Us) (n : Nat), s.live (s.x r) = some (.chan n) →
    (∀ k rest, (s.chan n).inbuf = k :: rest →
      let taken := { s.chan n with inbuf := rest, inmsg := decide (k ≠ ⟨true, 1#8⟩) }
      let plain := k.value.toNat < 192 ∨ s.cur.sr.ink = true ∨ 224 ≤ k.value.toNat ∨ s.plat.privTrap = none
      (k.control = false →
        exec (.int d r) s = .next ((s.withThr s.tid (s.cur.put d (BitVec.ofNat 32 k.value.toNat))).withChanN n taken) ∧
        ∀ i ∈ ([.inct d r, .chkct r src, .chkcti r us] : List Instr), ∃ t, exec i s = .next t ∧ s.trapped t 4#32 (s.x r)) ∧
      (k.control = true →
        (∃ t, exec (.int d r) s = .next t ∧ s.trapped t 4#32 (s.x r)) ∧
        (plain → exec (.inct d r) s =
          .next ((s.withThr s.tid (s.cur.put d (BitVec.ofNat 32 k.value.toNat))).withChanN n taken)) ∧
        (∀ e, s.plat.privTrap = some e → ¬plain → ∃ t, exec (.inct d r) s = .next t ∧ s.trapped t (ExcType.code e) (s.x r)) ∧
        ∀ p ∈ ([(.chkct r src, (s.x src).toNat), (.chkcti r us, us.val)] : List (Instr × Nat)),
          (∀ e, s.plat.privTrap = some e → p.2 = k.value.toNat → ¬plain →
            ∃ t, exec p.1 s = .next t ∧ s.trapped t (ExcType.code e) (s.x r)) ∧
          (p.2 = k.value.toNat → plain → exec p.1 s = .next (s.withChanN n taken)) ∧
          (p.2 ≠ k.value.toNat → ∃ t, exec p.1 s = .next t ∧ s.trapped t 4#32 (s.x r)))) ∧
    ((s.chan n).inbuf = [] → ∀ i ∈ ([.int d r, .inct d r, .chkct r src, .chkcti r us] : List Instr),
      exec i s = .next ((s.withThr s.tid s.waitingCur).withChanN n { s.chan n with waiterIn := some s.tid }))

/-- R432. -/
def Obligations.WordInput : Prop :=
  ∀ (s : State) (d r : Reg) (n : Nat), s.live (s.x r) = some (.chan n) →
    (∀ (a b c e : Byte) (rest : List Token),
      (s.chan n).inbuf = ⟨false, a⟩ :: ⟨false, b⟩ :: ⟨false, c⟩ :: ⟨false, e⟩ :: rest →
      exec (.in_ d r) s = .next ((s.withThr s.tid (s.cur.put d (a ++ b ++ c ++ e))).withChanN n
        { s.chan n with inbuf := rest, inmsg := true })) ∧
    ((∃ k ∈ (s.chan n).inbuf.take 4, k.control = true) →
      ∃ t, exec (.in_ d r) s = .next t ∧ s.trapped t 4#32 (s.x r)) ∧
    ((s.chan n).inbuf.length < 4 → (∀ k ∈ (s.chan n).inbuf, k.control = false) →
      exec (.in_ d r) s = .next ((s.withThr s.tid s.waitingCur).withChanN n { s.chan n with waiterIn := some s.tid }))

/-- R433 to R435. -/
def Obligations.TokenTests : Prop :=
  ∀ (s : State) (d r : Reg) (n : Nat), s.live (s.x r) = some (.chan n) →
    (∀ k rest, (s.chan n).inbuf = k :: rest →
      ∃ t, exec (.testct d r) s = .next t ∧ s.becomes t (s.cur.put d (if k.control then 1#32 else 0#32))) ∧
    (∀ pre k rest, (s.chan n).inbuf = pre ++ k :: rest → pre.length < 4 → (∀ q ∈ pre, q.control = false) → k.control = true →
      ∃ t, exec (.testwct d r) s = .next t ∧ s.becomes t (s.cur.put d (BitVec.ofNat 32 (pre.length + 1)))) ∧
    (4 ≤ (s.chan n).inbuf.length → (∀ q ∈ (s.chan n).inbuf.take 4, q.control = false) →
      ∃ t, exec (.testwct d r) s = .next t ∧ s.becomes t (s.cur.put d 0#32)) ∧
    ((s.chan n).destset = true → ∃ t, exec (.testlcl d r) s = .next t ∧ s.becomes t (s.cur.put d
      (if (s.chan n).dest.toNat / 65536 = (s.x r).toNat / 65536 then 1#32 else 0#32))) ∧
    ((s.chan n).destset = false → ∃ t, exec (.testlcl d r) s = .next t ∧ s.trapped t 4#32 (s.x r)) ∧
    ((s.chan n).inbuf = [] → exec (.testct d r) s =
      .next ((s.withThr s.tid s.waitingCur).withChanN n { s.chan n with waiterIn := some s.tid })) ∧
    ((s.chan n).inbuf.length < 4 → (∀ q ∈ (s.chan n).inbuf, q.control = false) → exec (.testwct d r) s =
      .next ((s.withThr s.tid s.waitingCur).withChanN n { s.chan n with waiterIn := some s.tid }))

/-- R441 and R442; the cleared owner is the model's (log 41). -/
def Obligations.Locks : Prop :=
  ∀ (s : State) (d r src : Reg) (n : Nat), s.live (s.x r) = some (.lock n) →
    let l := s.lock n
    (l.held = false → (l.queue = [] ∨ ∃ rest, l.queue = s.tid :: rest) →
      exec (.in_ d r) s = .next ((s.withThr s.tid (s.cur.put d (s.x r))).withLockN n
        { l with held := true, owner := some s.tid, queue := l.queue.drop 1 })) ∧
    ((l.held = true ∨ ∃ q rest, l.queue = q :: rest ∧ q ≠ s.tid) →
      exec (.in_ d r) s = .next ((s.withThr s.tid s.waitingCur).withLockN n
        { l with queue := if s.tid ∈ l.queue then l.queue else l.queue ++ [s.tid] })) ∧
    (l.queue = [] → exec (.out r src) s = .next (s.withLockN n { l with held := false, owner := none })) ∧
    (∀ q rest, l.queue = q :: rest → exec (.out r src) s = .next
      { (s.withThr q { s.thr q with sr := { (s.thr q).sr with waiting := false } }).withLockN n
          { l with held := false, owner := none } with
        ports := s.ports.map fun p => { p with waiter := if p.waiter = some q then none else p.waiter }
        timers := s.timers.map fun x => { x with waiter := if x.waiter = some q then none else x.waiter }
        chans := s.chans.map fun c => { c with
          waiterIn := if c.waiterIn = some q then none else c.waiterIn
          waiterOut := if c.waiterOut = some q then none else c.waiterOut } })

/-- R456 and R457. -/
def Obligations.TimerInput : Prop :=
  ∀ (s : State) (d r : Reg) (n : Nat), s.live (s.x r) = some (.timer n) →
    let late := (s.reftime.toNat + 2 ^ 32 - (s.timer n).data.toNat) % 2 ^ 32
    ((s.timer n).cond ≠ .after ∨ (1 ≤ late ∧ late < 2 ^ 31) →
      ∃ t, exec (.in_ d r) s = .next t ∧ s.becomes t (s.cur.put d s.reftime)) ∧
    ((s.timer n).cond = .after → late = 0 ∨ 2 ^ 31 ≤ late →
      exec (.in_ d r) s = .next ((s.withThr s.tid s.waitingCur).withTimerN n { s.timer n with waiter := some s.tid }))

/-- R405; the agenda is the model's (log 14). -/
def Obligations.TokenDelivery : Prop :=
  ∀ (s : State) (c : Nat),
    (∀ ms, s.agenda = .deliver c :: ms → s.threads ≠ [] → step s = .next (State.deliver { s with agenda := ms } c)) ∧
    ∀ (n : Nat) (d : Word) (k : Token) (rest : List (Word × Token)), c ≠ n → (s.chan c).flight = (d, k) :: rest → s.lookup d = some (.chan n) →
    ((s.chan n).inuse = true → (s.chan n).owner = none ∨ (s.chan n).owner = some (.chan c) →
      (k ≠ ⟨true, 2#8⟩ → (s.chan n).inbuf.length < s.plat.chanBuf →
        s.deliver c = (s.withChanN n { s.chan n with
          inbuf := (s.chan n).inbuf ++ [k], owner := if k = ⟨true, 1#8⟩ then none else some (.chan c) }).withChanN c
            { s.chan c with flight := rest }) ∧
      (k = ⟨true, 2#8⟩ →
        s.deliver c = (s.withChanN n { s.chan n with owner := none }).withChanN c { s.chan c with flight := rest })) ∧
    ((s.chan n).inuse = false ∨ (∃ o, (s.chan n).owner = some o ∧ o ≠ .chan c) ∨
      (k ≠ ⟨true, 2#8⟩ ∧ s.plat.chanBuf ≤ (s.chan n).inbuf.length) → s.deliver c = s)

/-- R461, R463, R464, R468, R469, R478, R481 to R483; what is asked of the second operand (log 33), the source level
and the count kept (log 18) and the pin of a READYPORT with no port (log 38) are the model's. -/
def Obligations.PortSetup : Prop :=
  ∀ (s : State) (d r src : Reg) (n : Nat),
    (s.live (s.x r) = some (.port n) →
      (s.x src = s.plat.refClkId ∨ (∃ k, s.lookup (s.x src) = some (.clk k)) →
        exec (.setclk r src) s = .next (s.withPortN n { s.port n with clk := s.x src })) ∧
      ((∃ q, s.lookup (s.x src) = some (.port q)) →
        exec (.setrdy r src) s = .next (s.withPortN n { s.port n with rdyport := some (s.x src) })) ∧
      ((s.x src ≠ s.plat.refClkId ∧ ∀ k, s.lookup (s.x src) ≠ some (.clk k)) →
        ∃ t, exec (.setclk r src) s = .next t ∧ s.trapped t 4#32 (s.x r)) ∧
      ((∀ q, s.lookup (s.x src) ≠ some (.port q)) → ∃ t, exec (.setrdy r src) s = .next t ∧ s.trapped t 4#32 (s.x r)) ∧
      (if (s.port n).direction = .output ∧ (s.port n).trfull = true then
        exec (.setpt r src) s = .next ((s.withThr s.tid s.waitingCur).withPortN n { s.port n with waiter := some s.tid })
      else exec (.setpt r src) s = .next (s.withPortN n { s.port n with
        porttime := BitVec.ofNat 16 (s.x src).toNat, porttimeset := true })) ∧
      exec (.clrpt r) s = .next (s.withPortN n { s.port n with porttimeset := false }) ∧
      (∃ t, exec (.getts d r) s = .next t ∧ s.becomes t (s.cur.put d (BitVec.ofNat 32 (s.port n).timestamp.toNat))) ∧
      (∃ t, exec (.peek d r) s = .next t ∧ s.becomes t (s.cur.put d (s.pins n))) ∧
      ((s.port n).modes.porttype = .dataPort → (s.port n).driving = false →
        (s.pins n).toNat = (s.port n).ext.toNat % 2 ^ (s.port n).width) ∧
      let p := s.port n
      let shows := fun w : Word => ∀ k < 32, (s.pins n).getLsbD k = (decide (k < p.width) &&
        match p.modes.drive with
        | .drive => w.getLsbD k != decide (p.modes.invert = .invert)
        | .pullDown => (w.getLsbD k != decide (p.modes.invert = .invert)) && p.ext.getLsbD k
        | .pullUp => (w.getLsbD k != decide (p.modes.invert = .invert)) || p.ext.getLsbD k)
      (p.modes.porttype = .dataPort → p.driving = true → shows p.outval) ∧
      (p.modes.porttype = .clockPort → (p.clk = s.plat.refClkId → shows (if s.refLevel then 1#32 else 0#32)) ∧
        (p.clk ≠ s.plat.refClkId → ∀ k, s.lookup p.clk = some (.clk k) → shows (if (s.clk k).level then 1#32 else 0#32))) ∧
      (p.modes.porttype = .readyPort →
        (∀ v q, p.rdyport = some v → s.lookup v = some (.port q) → shows (if (s.port q).rdyout then 1#32 else 0#32)) ∧
        (p.rdyport = none → (s.pins n).toNat = p.ext.toNat % 2 ^ p.width))) ∧
    (s.live (s.x r) = some (.clk n) →
      ((s.clk n).running = false → s.x src = s.plat.refClkId ∨ (∃ q, s.lookup (s.x src) = some (.port q) ∧ (s.port q).width = 1) →
        exec (.setclk r src) s = .next (s.withClkN n { s.clk n with source := s.x src })) ∧
      ((∃ q, s.lookup (s.x src) = some (.port q) ∧ (s.port q).width = 1) →
        exec (.setrdy r src) s = .next (s.withClkN n { s.clk n with rdysrc := some (s.x src) })) ∧
      ((s.clk n).running = true ∨ (s.x src ≠ s.plat.refClkId ∧ ∀ q, s.lookup (s.x src) = some (.port q) → (s.port q).width ≠ 1) →
        ∃ t, exec (.setclk r src) s = .next t ∧ s.trapped t 4#32 (s.x r)) ∧
      ((∀ q, s.lookup (s.x src) = some (.port q) → (s.port q).width ≠ 1) →
        ∃ t, exec (.setrdy r src) s = .next t ∧ s.trapped t 4#32 (s.x r)))

/-- R488 to R490 and R493; `held` is the model's (log 20). -/
def Obligations.PortWidths : Prop :=
  ∀ (s : State) (d r src : Reg) (n : Nat), s.live (s.x r) = some (.port n) →
    let p := s.port n
    let v := (s.x src).toNat
    (if p.modes.bufmode = .buffered ∧ (v = 1 ∨ v = 4 ∨ v = 8 ∨ v = 32) ∧ p.width ≤ v ∧ v % p.width = 0 then
      exec (.settw r src) s = .next (s.withPortN n { p with trwidth := v, shiftcount := v })
    else ∃ t, exec (.settw r src) s = .next t ∧ s.trapped t 4#32 (s.x r)) ∧
    (if p.modes.bufmode = .buffered ∧ 0 < v ∧ v ≤ p.trwidth ∧ v % p.width = 0 then
      exec (.setpsc r src) s = .next (s.withPortN n { p with shiftcount := v })
    else ∃ t, exec (.setpsc r src) s = .next t ∧ s.trapped t 4#32 (s.x r)) ∧
    (if p.modes.bufmode = .buffered ∧ p.direction = .input then
      exec (.endin d r) s = .next ((s.withThr s.tid (s.cur.put d
        (BitVec.ofNat 32 ((if p.trfull then p.trwidth else 0) + p.sfill)))).withPortN n
          { p with shiftcount := if p.sfill = 0 then p.trwidth else p.sfill })
    else ∃ t, exec (.endin d r) s = .next t ∧ s.trapped t 4#32 (s.x r)) ∧
    (if p.direction = .output ∧ (p.trfull = true ∨ p.sfill ≠ 0 ∨ p.held = false) then
      exec (.syncr r) s = .next ((s.withThr s.tid s.waitingCur).withPortN n { p with waiter := some s.tid })
    else exec (.syncr r) s = .next s)

/-- R470, R476, R479 and R491; the trap is the model's reading of D36 (log 20), the emptied shift register its choice
(log 21). -/
def Obligations.PortOutputs : Prop :=
  ∀ (s : State) (r src : Reg) (b : Us) (n : Nat), s.live (s.x r) = some (.port n) →
    let p := s.port n
    let filled : Port := { p with
      transfer := BitVec.ofNat 32 ((s.x src).toNat % 2 ^ p.trwidth), trfull := true, direction := .output
      sfill := if p.direction = .input then 0 else p.sfill }
    let fits := p.modes.bufmode = .buffered ∧ 0 < bitp b ∧ bitp b ≤ p.trwidth ∧ bitp b % p.width = 0
    (¬fits → ∃ t, exec (.outpw src r b) s = .next t ∧ s.trapped t 4#32 (s.x r)) ∧
    (p.direction = .output → p.trfull = true →
      ∀ q ∈ ([(.out r src, True), (.outshr r src, True), (.outpw src r b, fits)] : List (Instr × Prop)), q.2 →
        exec q.1 s = .next ((s.withThr s.tid s.waitingCur).withPortN n { p with waiter := some s.tid })) ∧
    (p.direction = .input → p.modes.bufmode = .buffered → p.inputting = true →
      ∀ i ∈ ([.out r src, .outshr r src, .outpw src r b] : List Instr),
        ∃ t, exec i s = .next t ∧ s.trapped t 4#32 (s.x r)) ∧
    (¬(p.direction = .output ∧ p.trfull = true) → ¬(p.direction = .input ∧ p.modes.bufmode = .buffered ∧ p.inputting = true) →
      exec (.out r src) s = .next (s.withPortN n filled) ∧
      exec (.outshr r src) s = .next ((s.withThr s.tid (s.cur.put src
        (BitVec.ofNat 32 ((s.x src).toNat / 2 ^ p.trwidth)))).withPortN n filled) ∧
      (fits → exec (.outpw src r b) s = .next (s.withPortN n { filled with shiftcount := bitp b })))

/-- R471, R477, R479 and R492; the trap of IN, INSHR and INPW on a BUFFERED port that outputs is the model's (log 20),
and so is that INPW writes its count once (log 22). -/
def Obligations.PortInputs : Prop :=
  ∀ (s : State) (d r : Reg) (b : Us) (n : Nat), s.live (s.x r) = some (.port n) → (s.port n).trwidth ≤ 32 →
    let p := s.port n
    let v := p.transfer.toNat % 2 ^ p.trwidth
    let fits := p.modes.bufmode = .buffered ∧ 0 < bitp b ∧ bitp b ≤ p.trwidth ∧ bitp b % p.width = 0
    let taken := { p with trfull := false, inputting := true, pw := none }
    let count := if p.pw = some s.tid then p.shiftcount else bitp b
    (p.direction = .input → p.trfull = true →
      exec (.in_ d r) s = .next ((s.withThr s.tid (s.cur.put d (BitVec.ofNat 32 v))).withPortN n taken) ∧
      exec (.inshr d r) s = .next ((s.withThr s.tid (s.cur.put d
        (BitVec.ofNat 32 (v * 2 ^ (32 - p.trwidth) + (s.x d).toNat / 2 ^ p.trwidth)))).withPortN n taken) ∧
      (fits → exec (.inpw d r b) s = .next ((s.withThr s.tid (s.cur.put d (BitVec.ofNat 32 v))).withPortN n
        { taken with shiftcount := count }))) ∧
    (p.direction = .input → p.trfull = false →
      (∀ i ∈ ([.in_ d r, .inshr d r] : List Instr),
        exec i s = .next ((s.withThr s.tid s.waitingCur).withPortN n { p with waiter := some s.tid })) ∧
      (fits → exec (.inpw d r b) s = .next ((s.withThr s.tid s.waitingCur).withPortN n
        { p with waiter := some s.tid, shiftcount := count, pw := some s.tid }))) ∧
    (p.direction = .output → p.modes.bufmode = .synchronised → ∀ i ∈ ([.in_ d r, .inshr d r] : List Instr),
      exec i s = .next ((s.withThr s.tid s.waitingCur).withPortN n
        { p with waiter := some s.tid, direction := if p.trfull then .output else .input })) ∧
    (p.direction = .output → p.modes.bufmode = .buffered →
      ∀ i ∈ ([.in_ d r, .inshr d r, .inpw d r b] : List Instr), ∃ t, exec i s = .next t ∧ s.trapped t 4#32 (s.x r)) ∧
    (¬fits → ∃ t, exec (.inpw d r b) s = .next t ∧ s.trapped t 4#32 (s.x r))

/-- R454, R459, R462, R467, R469, R472, R473 and R479, on the edges of the reference clock (log 18; also log 20, log
23, log 43). -/
def Obligations.ReferenceClock : Prop :=
  (∀ s : State,
    (∀ rest, s.agenda = .refEdge :: rest → s.threads ≠ [] → step s = .next (State.refEdge { s with agenda := rest })) ∧
    s.refEdge.threads = s.threads ∧ s.refEdge.mem = s.mem ∧
    s.refEdge.reftime = (if s.refLevel then s.reftime + 1#32 else s.reftime) ∧ s.refEdge.refLevel = !s.refLevel ∧
    (∀ k < s.clks.length,
      let c := s.clk k
      let d := s.refEdge.clk k
      (c.source ≠ s.plat.refClkId ∨ c.inuse = false ∨ c.running = false → d.level = c.level ∧ d.count = c.count) ∧
      (c.source = s.plat.refClkId → c.inuse = true → c.running = true →
        (c.div.toNat = 0 → d.level = !s.refLevel) ∧
        (0 < c.div.toNat → c.srcLevel = s.refLevel →
          (s.refLevel = false → d.level = c.level ∧ d.count = c.count) ∧
          (s.refLevel = true → c.count + 1 < c.div.toNat → d.level = c.level ∧ d.count = c.count + 1) ∧
          (s.refLevel = true → c.div.toNat ≤ c.count + 1 → d.level = !c.level ∧ d.count = 0)))) ∧
    ∀ n < s.ports.length,
      let p := s.port n
      let q := s.refEdge.port n
      let falls := (p.clk = s.plat.refClkId ∧ s.refLevel = true) ∨ (p.clk ≠ s.plat.refClkId ∧ ∃ k < s.clks.length,
        p.clk = word (k * 256 + 6) ∧ (s.clk k).level = true ∧ (s.refEdge.clk k).level = false)
      (¬(falls ∧ p.inuse = true ∧ p.running = true) → q = p) ∧
      (falls → p.inuse = true → p.running = true → ∃ r x, q = p.setup.cycle r x ∧
        (p.clk = s.plat.refClkId → r = true) ∧
        (p.clk ≠ s.plat.refClkId → ∀ k, s.lookup p.clk = some (.clk k) → ((s.clk k).rdysrc = none → r = true) ∧
          ∀ v m, (s.clk k).rdysrc = some v → s.lookup v = some (.port m) → (s.port m).width = 1 →
            (s.port m).modes.porttype = .dataPort → (s.port m).driving = false → r = (s.port m).ext.getLsbD 0) ∧
        (p.setup.direction = .input → p.modes.porttype = .dataPort →
          (p.modes.invert = .noInvert → x.toNat = p.ext.toNat % 2 ^ p.width) ∧
          (p.modes.invert = .invert → ∀ k < 32, x.getLsbD k = (decide (k < p.width) && !p.ext.getLsbD k))))) ∧
  ∀ (p : Port) (r : Bool) (x : Word),
    let turns := p.direction = .output ∧ p.modes.bufmode = .synchronised ∧ p.trfull = false ∧ p.porttimeset = true ∧
      p.porttimer + 1#16 = p.porttime
    let timeok := p.porttimeset = false ∨ p.porttimer = p.porttime
    let met := (p.cond = .eq → x.toNat = p.data.toNat % 2 ^ p.width) ∧ (p.cond = .neq → x.toNat ≠ p.data.toNat % 2 ^ p.width)
    let work := (p.direction = .output ∧ (p.trfull = true ∨ p.sfill ≠ 0)) ∨
      (p.direction = .input ∧ (p.trfull = false ∨ (p.modes.bufmode = .buffered ∧ p.sfill < p.shiftcount)))
    let en := p.modes.rdymode = .noReady ∨ (p.modes.rdymode = .strobed ∧ (p.modes.msmode = .master ∨ r = true)) ∨
      (p.modes.rdymode = .handshaken ∧ work ∧ r = true)
    let c := p.cycle r x
    let strobe := p.modes.rdymode = .strobed ∧ p.modes.msmode = .master
    p.setup = { p with
      porttimer := p.porttimer + 1#16, held := true, direction := if turns then .input else p.direction
      driving := p.driving && decide (p.direction = .output ∧ ¬turns) } ∧
    (p.modes.rdymode = .handshaken → p.modes.msmode = .master → c.rdyout = decide work) ∧
    (p.modes.rdymode = .handshaken → p.modes.msmode = .slave → c.rdyout = decide en) ∧
    (¬en → c = { p with rdyout := c.rdyout }) ∧
    (en → p.modes.bufmode = .synchronised → p.direction = .output →
      (p.trfull = true ∧ timeok → c = { p with
        trfull := false, outval := BitVec.ofNat 32 (p.transfer.toNat % 2 ^ p.width), driving := true, held := false
        timestamp := p.porttimer, porttimeset := false, rdyout := c.rdyout } ∧ (strobe → c.rdyout = true)) ∧
      (¬(p.trfull = true ∧ timeok) → c = { p with rdyout := c.rdyout } ∧ (strobe → c.rdyout = false))) ∧
    (en → p.modes.bufmode = .synchronised → p.direction = .input →
      let take := p.trfull = false ∧ timeok ∧
        (p.waiter ≠ none ∨ p.es.enb = true ∨ p.cond ≠ .uncond ∨ p.porttimeset = true) ∧ met
      (take → c = { p with
        transfer := x, trfull := true, cond := .uncond, timestamp := p.porttimer, porttimeset := false
        rdyout := c.rdyout } ∧ (strobe → c.rdyout = true)) ∧
      (¬take → c = { p with rdyout := c.rdyout } ∧ (strobe → c.rdyout = false))) ∧
    (en → p.modes.bufmode = .buffered → p.direction = .output →
      let load := p.sfill = 0 ∧ p.trfull = true ∧ timeok
      let sh := if load then p.transfer else p.shift
      let fill := if load then p.shiftcount else p.sfill
      (strobe → c.rdyout = decide (fill ≠ 0)) ∧
      c = { p with
        trfull := if load then false else p.trfull, timestamp := if load then p.porttimer else p.timestamp
        porttimeset := if load then false else p.porttimeset, shiftcount := if load then p.trwidth else p.shiftcount
        shift := if fill = 0 then sh else sh >>> p.width, sfill := fill - p.width
        outval := if fill = 0 then p.outval else BitVec.ofNat 32 (sh.toNat % 2 ^ p.width)
        driving := if fill = 0 then p.driving else true, held := if fill = 0 then p.held else false
        rdyout := c.rdyout }) ∧
    (en → p.modes.bufmode = .buffered → p.direction = .input → (strobe → c.rdyout = true) ∧
      let shifted := word (x.toNat % 2 ^ p.width * 2 ^ (p.trwidth - p.width) + p.shift.toNat % 2 ^ p.trwidth / 2 ^ p.width)
      (p.cond = .uncond →
        let moves := p.sfill < p.shiftcount ∨ p.modes.rdymode ≠ .handshaken
        let sh := if moves then shifted else p.shift
        let fill := if moves then min (p.sfill + p.width) p.shiftcount else p.sfill
        let full' := fill = p.shiftcount ∧ p.trfull = false ∧ timeok
        c = { p with
          shift := sh, sfill := if full' then 0 else fill, trfull := if full' then true else p.trfull
          transfer := if full' then sh >>> (p.trwidth - p.shiftcount) else p.transfer
          timestamp := if full' then p.porttimer else p.timestamp
          porttimeset := if full' then false else p.porttimeset
          shiftcount := if full' then p.trwidth else p.shiftcount, rdyout := c.rdyout }) ∧
      (p.cond ≠ .uncond →
        c = { p with
          shift := shifted, transfer := if met then shifted else p.transfer, trfull := if met then true else p.trfull
          timestamp := if met then p.porttimer else p.timestamp, cond := if met then .uncond else p.cond
          sfill := if met then 0 else p.sfill, shiftcount := if met then p.trwidth else p.shiftcount
          rdyout := c.rdyout }))

/-- The common checks of R354. -/
def Obligations.ResourceTraps : Prop :=
  ∀ (s : State) (d r src : Reg) (us : Us) (n : Nat),
    let onChan : List Instr := [.setn r src, .getn d r, .outt r src, .outct r src, .outcti r us, .int d r, .inct d r,
      .chkct r src, .chkcti r us, .testct d r, .testwct d r, .testlcl d r]
    let onPort : List Instr := [.setrdy r src, .setclk r src, .outshr r src, .inshr d r, .peek d r, .setpt r src, .clrpt r,
      .getts d r, .settw r src, .setpsc r src, .endin d r, .outpw src r us, .inpw d r us, .syncr r]
    let onEvent : List Instr := [.setv r, .setev r, .eet d r, .eef d r, .eeu r, .edu r, .setd r src, .getd d r]
    (s.live (s.x r) = none → ∀ i ∈ onChan ++ onPort ++ onEvent ++ [.in_ d r, .out r src, .getst d r, .msync r, .mjoin r],
      ∃ t, exec i s = .next t ∧ s.trapped t 4#32 (s.x r)) ∧
    ∀ p ∈ ([(.lock n, onChan ++ onPort ++ onEvent ++ [.getst d r, .msync r, .mjoin r]),
        (.sync n, onChan ++ onPort ++ onEvent ++ [.in_ d r, .out r src]),
        (.thread n, onChan ++ onPort ++ onEvent ++ [.in_ d r, .out r src, .getst d r, .msync r, .mjoin r]),
        (.timer n, onChan ++ onPort ++ [.out r src, .getst d r, .msync r, .mjoin r]),
        (.clk n, onChan ++ onPort.drop 2 ++ onEvent.take 6 ++ [.in_ d r, .out r src, .getst d r, .msync r, .mjoin r]),
        (.port n, onChan ++ [.getst d r, .msync r, .mjoin r]), (.chan n, onPort ++ [.getst d r, .msync r, .mjoin r])] :
        List (Res × List Instr)), s.live (s.x r) = some p.1 →
      ∀ i ∈ p.2, ∃ t, exec i s = .next t ∧ s.trapped t 4#32 (s.x r)

/-- R520 to R522 and R537 to R540, on the status register of R35. -/
def Obligations.StatusAndWaits : Prop :=
  (∀ f : SR, f.toWord.toNat = f.eeble.toNat + 2 * f.ieble.toNat + 4 * f.inenb.toNat + 8 * f.inint.toNat + 16 * f.ink.toNat +
    32 * f.sink.toNat + 64 * f.waiting.toNat + 128 * f.fast.toNat) ∧
  ∀ (s : State) (c : Reg) (u : BitVec 16),
    (∃ t, exec (.getsr u) s = .next t ∧ s.becomes t (s.cur.put r11 (s.cur.sr.toWord &&& u.setWidth 32))) ∧
    (u.getLsbD 3 = false → u.getLsbD 5 = false → u.getLsbD 6 = false →
      (∃ f, exec (.setsr u) s = .next (s.withThr s.tid { s.cur with sr := f }) ∧
        f.toWord = s.cur.sr.toWord ||| (u.setWidth 32 &&& 0xFF#32)) ∧
      ∃ f, exec (.clrsr u) s = .next (s.withThr s.tid { s.cur with sr := f }) ∧
        f.toWord = s.cur.sr.toWord &&& ~~~(u.setWidth 32)) ∧
    ∀ p ∈ ([(.waitet c, (s.x c).toNat ≠ 0), (.waitef c, (s.x c).toNat = 0), (.waiteu, True)] : List (Instr × Prop)),
      (p.2 → ∃ t, exec p.1 s = .next t ∧ s.becomes t { s.cur with
        pc := s.pcThis, sr := { s.cur.sr with eeble := true, waiting := true }, evwait := true }) ∧
      (¬p.2 → exec p.1 s = .next s)

/-- R530 to R536. -/
def Obligations.EventSetup : Prop :=
  ∀ (s : State) (d r : Reg),
    (∀ q : ResRef, s.live (s.x r) = some q.res →
      exec (.setv r) s = .next (s.withEsN q { s.es q with v := s.x r11 }) ∧
      exec (.setev r) s = .next (s.withEsN q { s.es q with ev := s.x r11 }) ∧
      ∀ p ∈ ([(.eet d r, decide ((s.x d).toNat ≠ 0)), (.eef d r, decide ((s.x d).toNat = 0)), (.eeu r, true),
          (.edu r, false)] : List (Instr × Bool)),
        exec p.1 s = .next (s.withEsN q { s.es q with enb := p.2, thread := s.tid })) ∧
    (let off := fun e : EventState => if e.thread = s.tid ∧ e.iemode = .event then { e with enb := false } else e
     exec .clre s = .next { s.withThr s.tid { s.cur with sr := { s.cur.sr with eeble := false, inenb := false } } with
      ports := s.ports.map fun p => { p with es := off p.es }
      timers := s.timers.map fun x => { x with es := off x.es }
      chans := s.chans.map fun c => { c with es := off c.es } })

/-- R661: the entry of R660 with et = 15 at kep + 64; sink by the decision D12 (log 39). -/
def Obligations.KernelCallEntry : Prop :=
  ∀ (s : State) (src : Reg) (u : BitVec 16),
    ∀ p ∈ ([(.kcall src, s.x src), (.kcalli u, u.setWidth 32)] : List (Instr × Word)),
      ∃ t, exec p.1 s = .next t ∧ s.becomes t { s.cur with
        spc := s.pcThis, ssr := s.cur.sr.toWord, et := 15#32, sed := s.cur.ed, ed := p.2, pc := s.cur.kep + 64#32
        sr := { s.cur.sr with sink := s.cur.sr.ink, ink := true, eeble := false, ieble := false } }

/-- R550, R551, R554, R660 and R668. -/
def Obligations.EcallAndKret : Prop :=
  ∀ (s : State) (c : Reg),
    ((s.x c).toNat ≠ 0 → (∃ t, exec (.ecallt c) s = .next t ∧ s.trapped t 8#32 0#32) ∧ exec (.ecallf c) s = .next s) ∧
    ((s.x c).toNat = 0 → (∃ t, exec (.ecallf c) s = .next t ∧ s.trapped t 8#32 0#32) ∧ exec (.ecallt c) s = .next s) ∧
    ∃ t, exec .kret s = .next t ∧ s.becomes t { s.cur with
      pc := s.cur.spc
      ed := s.cur.sed
      sr := ⟨s.cur.ssr.getLsbD 0, s.cur.ssr.getLsbD 1, s.cur.ssr.getLsbD 2, s.cur.ssr.getLsbD 3, s.cur.ssr.getLsbD 4,
        s.cur.ssr.getLsbD 5, false, s.cur.ssr.getLsbD 7⟩ }

/-- R560 to R571 and R575 to R577. -/
def Obligations.SavedRegisters : Prop :=
  ∀ (s : State) (u : BitVec 16),
    (∀ p ∈ ([(.ldspc, s.x sp + 4#32, fun v => { s.cur with spc := v }), (.ldssr, s.x sp + 8#32, fun v => { s.cur with ssr := v }),
        (.ldsed, s.x sp + 12#32, fun v => { s.cur with sed := v }), (.ldet, s.x sp + 16#32, fun v => { s.cur with et := v }),
        (.krestsp u, s.x sp + u.setWidth 32 * 4#32,
          fun v => { s.cur.put sp v with ksp := s.x sp + u.setWidth 32 * 4#32 })] : List (Instr × Word × (Word → Thread))),
      p.2.1.toNat % 4 = 0 → memValid s.plat p.2.1.toNat = true →
      ∃ t, exec p.1 s = .next t ∧ s.becomes t (p.2.2 (s.memRead p.2.1 4))) ∧
    (Memory.wf s.mem = true → ∀ p ∈ ([(.stspc, s.x sp + 4#32, s.cur.spc, s.cur), (.stssr, s.x sp + 8#32, s.cur.ssr, s.cur),
        (.stsed, s.x sp + 12#32, s.cur.sed, s.cur), (.stet, s.x sp + 16#32, s.cur.et, s.cur),
        (.kentsp u, s.cur.ksp, s.x sp, s.cur.put sp (s.cur.ksp - u.setWidth 32 * 4#32))] :
        List (Instr × Word × Word × Thread)),
      p.2.1.toNat % 4 = 0 → memValid s.plat p.2.1.toNat = true → inRom s.plat p.2.1.toNat = false →
      ∃ t, exec p.1 s = .next t ∧ s.stores t p.2.2.2 p.2.1 4 p.2.2.1) ∧
    ∀ p ∈ ([(.getet, s.cur.put r11 s.cur.et), (.geted, s.cur.put r11 s.cur.ed), (.getkep, s.cur.put r11 s.cur.kep),
        (.getksp, s.cur.put r11 s.cur.ksp), (.setkep, { s.cur with kep := s.x r11 })] : List (Instr × Thread)),
      ∃ t, exec p.1 s = .next t ∧ s.becomes t p.2

/-- R655; that a half-done INPW is forgotten is the model's (log 22). -/
def Obligations.EventEntry : Prop :=
  ∀ (s : State) (t : Nat) (q : ResRef) (rest : List Move), s.agenda = .event t q :: rest → (t = 0 → s.debugDue = false) →
    (s.thr t).inuse = true → t ∉ s.spaused → t ∉ s.mpaused → (s.dbg.indbg = false ∨ t = 0) →
    (s.thr t).sr.eeble = true → s.refInuse q = true → (s.es q).thread = t → (s.es q).enb = true →
    (s.es q).iemode = .event → s.ready q = true →
    ∃ u, step s = .next u ∧ (∀ e ∈ u.stale, e ∈ s.stale) ∧
      u = { s.withThr t { s.thr t with
          ed := (s.es q).ev, pc := (s.es q).v, sr := { (s.thr t).sr with inenb := false, eeble := false, waiting := false } } with
        agenda := rest
        stale := u.stale
        ports := s.ports.map fun p => { p with
          waiter := if p.waiter = some t then none else p.waiter, pw := if p.pw = some t then none else p.pw }
        timers := s.timers.map fun x => { x with waiter := if x.waiter = some t then none else x.waiter }
        chans := s.chans.map fun c => { c with
          waiterIn := if c.waiterIn = some t then none else c.waiterIn
          waiterOut := if c.waiterOut = some t then none else c.waiterOut }
        locks := s.locks.map fun l => { l with queue := l.queue.filter (· != t) } }

/-- R657; that a half-done INPW is forgotten is the model's (log 22). -/
def Obligations.InterruptEntry : Prop :=
  ∀ (s : State) (t : Nat) (q : ResRef) (rest : List Move), s.agenda = .interrupt t q :: rest → (t = 0 → s.debugDue = false) →
    (s.thr t).inuse = true → t ∉ s.spaused → t ∉ s.mpaused → (s.dbg.indbg = false ∨ t = 0) →
    (s.thr t).sr.ieble = true → s.refInuse q = true → (s.es q).thread = t → (s.es q).enb = true →
    (s.es q).iemode = .interrupt → s.ready q = true →
    ∃ u, step s = .next u ∧ (∀ e ∈ u.stale, e ∈ s.stale) ∧
      u = { s.withThr t { s.thr t with
          spc := (s.thr t).pc, ssr := (s.thr t).sr.toWord, pc := (s.es q).v, sed := (s.thr t).ed, ed := (s.es q).ev
          sr := { (s.thr t).sr with
            sink := (s.thr t).sr.ink, inint := true, ink := true, eeble := false, ieble := false, waiting := false } } with
        agenda := rest
        stale := u.stale
        ports := s.ports.map fun p => { p with
          waiter := if p.waiter = some t then none else p.waiter, pw := if p.pw = some t then none else p.pw }
        timers := s.timers.map fun x => { x with waiter := if x.waiter = some t then none else x.waiter }
        chans := s.chans.map fun c => { c with
          waiterIn := if c.waiterIn = some t then none else c.waiterIn
          waiterOut := if c.waiterOut = some t then none else c.waiterOut }
        locks := s.locks.map fun l => { l with queue := l.queue.filter (· != t) } }

/-- R57, R85, R540 and R651; how a wait for an event is noted is the model's (log 44). -/
def Obligations.ThreadsThatMayNotMove : Prop :=
  ∀ (s : State) (t : Nat) (q : ResRef) (m : Move) (rest : List Move), s.agenda = m :: rest → s.threads ≠ [] →
    (t = 0 → s.debugDue = false) →
    (m ∈ ([.issue t, .event t q, .interrupt t q, .resume t] : List Move) →
      ((s.thr t).inuse = false ∨ t ∈ s.spaused ∨ t ∈ s.mpaused ∨ (s.dbg.indbg = true ∧ t ≠ 0)) →
      step s = .next { s with agenda := rest }) ∧
    ((m = .issue t ∧ (s.thr t).sr.waiting = true) ∨ (m = .resume t ∧ (s.thr t).evwait = true) ∨ (m = .event t q ∧ (s.thr t).sr.eeble = false) ∨
      (m = .interrupt t q ∧ (s.thr t).sr.ieble = false) → step s = .next { s with agenda := rest })

/-- R592 and R593, and U10 for DCALL in debug mode (log 31); the forgotten INPW is the model's (log 22). -/
def Obligations.DebugEntry : Prop :=
  ∀ s : State, (s.thr 0).inuse = true → 0 ∉ s.spaused → 0 ∉ s.mpaused →
    let entered := fun (s u : State) (cause : Word) => (∀ e ∈ u.stale, e ∈ s.stale) ∧
      u = { s.withThr 0 { s.thr 0 with
          pc := s.plat.debugEntry
          sr := { (s.thr 0).sr with
            sink := (s.thr 0).sr.ink, inint := true, ink := true, eeble := false, ieble := false, inenb := false
            waiting := false } } with
        stale := u.stale
        dbg := { s.dbg with dspc := (s.thr 0).pc, dssr := (s.thr 0).sr.toWord, dtype := cause, indbg := true }
        ports := s.ports.map fun p => { p with
          waiter := if p.waiter = some 0 then none else p.waiter, pw := if p.pw = some 0 then none else p.pw }
        timers := s.timers.map fun x => { x with waiter := if x.waiter = some 0 then none else x.waiter }
        chans := s.chans.map fun c => { c with
          waiterIn := if c.waiterIn = some 0 then none else c.waiterIn
          waiterOut := if c.waiterOut = some 0 then none else c.waiterOut }
        locks := s.locks.map fun l => { l with queue := l.queue.filter (· != 0) } }
    (s.dbg.indbg = false → ∃ u, exec .dcall s = .next u ∧ entered s u s.plat.dtypeDcall) ∧
    (s.dbg.indbg = true → exec .dcall s = .refused .debugEntryUndefined) ∧
    (∀ cause rest q, ∀ m ∈ ([.issue 0, .event 0 q, .interrupt 0 q, .resume 0] : List Move), s.agenda = m :: rest →
      s.dbg.indbg = false → s.dbg.request = some cause →
      ∃ u, step s = .next u ∧ entered { s with agenda := rest, dbg := { s.dbg with request := none } } u cause)

/-- R594 to R597. -/
def Obligations.DebugInstructions : Prop :=
  ∀ (s : State) (src : Reg),
    (s.dbg.indbg = false → ∀ i ∈ ([.dret, .dentsp, .drestsp, .dgetreg src] : List Instr),
      ∃ t, exec i s = .next t ∧ s.trapped t 3#32 0#32) ∧
    (s.dbg.indbg = true →
      (∃ t, exec .dret s = .next t ∧ (∀ e ∈ t.stale, e ∈ s.stale) ∧
        t = { s.withThr 0 { s.thr 0 with
          pc := s.dbg.dspc
          sr := ⟨s.dbg.dssr.getLsbD 0, s.dbg.dssr.getLsbD 1, s.dbg.dssr.getLsbD 2, s.dbg.dssr.getLsbD 3,
            s.dbg.dssr.getLsbD 4, s.dbg.dssr.getLsbD 5, false, s.dbg.dssr.getLsbD 7⟩ } with
          dbg := { s.dbg with indbg := false }, stale := t.stale }) ∧
      exec .dentsp s = .next { s.withThr s.tid (s.cur.put sp s.plat.ramEndSp) with dbg := { s.dbg with dssp := s.x sp } } ∧
      (∃ t, exec .drestsp s = .next t ∧ s.becomes t (s.cur.put sp s.dbg.dssp)) ∧
      (s.dbg.dtid.toNat < s.threads.length →
        let w := s.thr s.dbg.dtid.toNat
        (∀ k : Reg, s.dbg.dtreg.toNat = k.val →
          ∃ t, exec (.dgetreg src) s = .next t ∧ s.becomes t (s.cur.put src (w.get k))) ∧
        ∀ p ∈ ([(16, w.pc), (17, w.sr.toWord), (18, w.spc), (19, w.ssr), (20, w.et), (21, w.ed), (22, w.sed), (23, w.kep),
            (24, w.ksp)] : List (Nat × Word)), s.dbg.dtreg.toNat = p.1 →
          ∃ t, exec (.dgetreg src) s = .next t ∧ s.becomes t (s.cur.put src p.2)) ∧
      (s.threads.length ≤ s.dbg.dtid.toNat ∨ 24 < s.dbg.dtreg.toNat →
        ∃ t v, exec (.dgetreg src) s = .next t ∧ t = { s.withThr s.tid (s.cur.put src v) with free := t.free }))

/-- R598 to R600; that the ROM address is ROM_BASE alone is the model's reading (log 48). -/
def Obligations.PsRegisters : Prop :=
  ∀ (s : State) (d r src : Reg) (q : PsReg),
    let n := (s.x r).toNat / 256 % 256
    let named := (s.x r).toNat % 256 = 11 ∧ (s.x r).toNat / 65536 = 0
    (named → s.plat.psRegs.find? (fun p => decide (p.number = n)) = some q →
      (∃ t, exec (.getps d r) s = .next t ∧ s.becomes t (s.cur.put d (s.dbg.readPs q))) ∧
      (q.readOnly = true ∨ (q.kind = .rambase ∧ (s.x src).toNat = s.plat.romBase % 2 ^ 32) →
        ∃ t, exec (.setps r src) s = .next t ∧ s.trapped t 6#32 (s.x r)) ∧
      (q.readOnly = false → ¬(q.kind = .rambase ∧ (s.x src).toNat = s.plat.romBase % 2 ^ 32) →
        ∃ g, exec (.setps r src) s = .next { s with dbg := g } ∧ g.readPs q = s.x src ∧ g.request = s.dbg.request ∧
          ∀ p : PsReg, p.kind ≠ q.kind ∨ (p.kind = .cell ∧ p.number ≠ q.number) → g.readPs p = s.dbg.readPs p)) ∧
    (¬named ∨ (∀ p ∈ s.plat.psRegs, p.number ≠ n) → ∀ i ∈ ([.getps d r, .setps r src] : List Instr),
      ∃ t, exec i s = .next t ∧ s.trapped t 6#32 (s.x r))

/-- R620 to R626; which value a doubled destination holds is free (log 12). -/
def Obligations.LongArithmetic : Prop :=
  ∀ (s : State) (d e x y v w : Reg),
    let n := fun r : Reg => (s.x r).toNat
    let forms : List (Instr × (Nat → Nat → Prop)) := [
        (.ladd d e x y v, fun a b => b * 2 ^ 32 + a = n x + n y + n v % 2),
        (.lsub d e x y v, fun a b => a + n y + n v % 2 = n x + b * 2 ^ 32 ∧ b < 2),
        (.lmul d e x y v w, fun a b => a * 2 ^ 32 + b = n x * n y + n v + n w),
        (.maccu d e x y, fun a b => a * 2 ^ 32 + b = (n d * 2 ^ 32 + n e + n x * n y) % 2 ^ 64),
        (.maccs d e x y, fun a b =>
          ((a * 2 ^ 32 + b : Nat) : Int) = ((n d * 2 ^ 32 + n e : Nat) + (s.x x).toInt * (s.x y).toInt) % 2 ^ 64)]
    (d ≠ e → ∀ p ∈ forms, ∃ t a b, exec p.1 s = .next t ∧ s.becomes t ((s.cur.put e b).put d a) ∧ p.2 a.toNat b.toNat) ∧
    (d ≠ e → n v < n y → ∃ t, exec (.ldivu d e x y v) s = .next t ∧ s.becomes t
      ((s.cur.put e (word ((n v * 2 ^ 32 + n x) % n y))).put d (word ((n v * 2 ^ 32 + n x) / n y)))) ∧
    (d = e → ∀ p ∈ forms, ∃ t a b c, exec p.1 s = .next t ∧
      t = { s.withThr s.tid (s.cur.put d c) with free := t.free } ∧ p.2 a.toNat b.toNat ∧ (c = a ∨ c = b)) ∧
    (d = e → n v < n y → ∃ t c, exec (.ldivu d e x y v) s = .next t ∧
      t = { s.withThr s.tid (s.cur.put d c) with free := t.free } ∧
      (c = word ((n v * 2 ^ 32 + n x) / n y) ∨ c = word ((n v * 2 ^ 32 + n x) % n y)))

/-- R627 and R628, and the source's statement that CRC8 repeated is CRC; which result a doubled destination holds is
free (log 12). -/
def Obligations.Checksums : Prop :=
  ∀ (s : State) (o r d p : Reg),
    let turn := fun q : Word × Word =>
      let n := (if q.2.getLsbD 0 then 0x80000000#32 else 0#32) ||| q.1 >>> 1
      (if q.1.getLsbD 0 then n ^^^ s.x p else n, q.2 >>> 1)
    (∃ t, exec (.crc r d p) s = .next t ∧ s.becomes t (s.cur.put r (turn^[32] (s.x r, s.x d)).1)) ∧
    (o ≠ r → ∃ t, exec (.crc8 o r d p) s = .next t ∧
      s.becomes t ((s.cur.put r (turn^[8] (s.x r, s.x d)).1).put o (s.x d >>> 8))) ∧
    (o = r → ∃ t a, exec (.crc8 o r d p) s = .next t ∧ t = { s.withThr s.tid (s.cur.put r a) with free := t.free } ∧
      (a = (turn^[8] (s.x r, s.x d)).1 ∨ a = s.x d >>> 8)) ∧
    (s.tid < s.threads.length → o ≠ r → o ≠ p → r ≠ p → r ≠ d → ∃ t1 t2 t3 t4 t,
      exec (.crc8 o r d p) s = .next t1 ∧ exec (.crc8 o r o p) t1 = .next t2 ∧ exec (.crc8 o r o p) t2 = .next t3 ∧
      exec (.crc8 o r o p) t3 = .next t4 ∧ exec (.crc r d p) s = .next t ∧ t4.x r = t.x r)
end

