-- ==== Sys2Proof/Laws/Memory.lean ====
section
/-! SUPPORT. Memory: reading after writing, and that every write keeps the canonical form. -/
namespace Sys2Proof.Machine

/-- All listed addresses are above a. -/
theorem Memory.read_of_all_lt {m : List Host.Cell} {a : Nat} (h : m.all (fun c => decide (a < c.1)) = true) :
    Memory.read m a = unlistedByte := by
  induction m with
  | nil => rfl
  | cons c m ih =>
    obtain ⟨k, b⟩ := c
    simp only [List.all_cons, Bool.and_eq_true, decide_eq_true_eq] at h
    have : a ≠ k := by omega
    simp [Memory.read, this, ih h.2]

/-- Reading where a write wrote. -/
theorem Memory.read_write_same {m : List Host.Cell} (h : Memory.wf m = true) (a : Nat) (v : Byte) :
    Memory.read (Memory.write m a v) a = v := by
  induction m with
  | nil => by_cases hv : v = unlistedByte <;> simp [Memory.write, Memory.read, hv]
  | cons c m ih =>
    obtain ⟨k, b⟩ := c
    simp only [Memory.wf, Bool.and_eq_true] at h
    obtain ⟨⟨hb, hall⟩, hm⟩ := h
    by_cases h1 : a < k
    · by_cases hv : v = unlistedByte
      · have hlt : m.all (fun c => decide (a < c.1)) = true := by
          simp only [List.all_eq_true, decide_eq_true_eq] at hall ⊢
          intro c hc; have := hall c hc; omega
        have : a ≠ k := by omega
        simp [Memory.write, h1, hv, Memory.read, this, Memory.read_of_all_lt hlt]
      · simp [Memory.write, h1, hv, Memory.read]
    · by_cases h2 : a = k
      · subst h2
        by_cases hv : v = unlistedByte
        · simp [Memory.write, hv, Memory.read_of_all_lt hall]
        · simp [Memory.write, hv, Memory.read]
      · simp [Memory.write, h1, h2, Memory.read, ih hm]

/-- Reading elsewhere than a write wrote. -/
theorem Memory.read_write_ne (m : List Host.Cell) {a a' : Nat} (v : Byte) (h : a' ≠ a) :
    Memory.read (Memory.write m a v) a' = Memory.read m a' := by
  induction m with
  | nil => by_cases hv : v = unlistedByte <;> simp [Memory.write, Memory.read, hv, h]
  | cons c m ih =>
    obtain ⟨k, b⟩ := c
    by_cases h1 : a < k
    · by_cases hv : v = unlistedByte <;> simp [Memory.write, h1, hv, Memory.read, h]
    · by_cases h2 : a = k
      · subst h2
        by_cases hv : v = unlistedByte <;> simp [Memory.write, hv, Memory.read, h]
      · simp only [Memory.write, h1, h2, if_false, Memory.read]
        split <;> [rfl; exact ih]

/-- A write adds no address below a bound but its own. -/
theorem Memory.all_lt_write {m : List Host.Cell} {k a : Nat} {v : Byte} (h : m.all (fun c => decide (k < c.1)) = true)
    (ha : k < a) : (Memory.write m a v).all (fun c => decide (k < c.1)) = true := by
  induction m with
  | nil => by_cases hv : v = unlistedByte <;> simp [Memory.write, hv, ha]
  | cons c m ih =>
    obtain ⟨k', b⟩ := c
    simp only [List.all_cons, Bool.and_eq_true] at h
    unfold Memory.write
    split
    · split <;> simp only [List.all_cons, h.1, h.2, decide_eq_true ha, Bool.and_self]
    · split
      · split <;> simp only [List.all_cons, h.2, decide_eq_true ha, Bool.and_self]
      · simp only [List.all_cons, Bool.and_eq_true]
        exact ⟨h.1, ih h.2⟩

/-- A write keeps the canonical form. -/
theorem Memory.wf_write {m : List Host.Cell} (h : Memory.wf m = true) (a : Nat) (v : Byte) :
    Memory.wf (Memory.write m a v) = true := by
  induction m with
  | nil => by_cases hv : v = unlistedByte <;> simp [Memory.write, Memory.wf, hv]
  | cons c m ih =>
    obtain ⟨k, b⟩ := c
    have h' := h
    simp only [Memory.wf, Bool.and_eq_true] at h
    obtain ⟨⟨hb, hall⟩, hm⟩ := h
    by_cases h1 : a < k
    · by_cases hv : v = unlistedByte
      · simpa [Memory.write, h1, hv] using h'
      · have hlt : m.all (fun c => decide (a < c.1)) = true := by
          simp only [List.all_eq_true, decide_eq_true_eq] at hall ⊢
          intro c hc; have := hall c hc; omega
        simp only [Memory.write, h1, hv, if_true, if_false]
        rw [Memory.wf]
        simp [hv, h1, hlt, h']
    · by_cases h2 : a = k
      · subst h2
        by_cases hv : v = unlistedByte
        · simpa [Memory.write, hv] using hm
        · simp [Memory.write, hv, Memory.wf, hall, hm]
      · have hk : k < a := by omega
        simp only [Memory.write, h1, h2, if_false, Memory.wf, Bool.and_eq_true]
        exact ⟨⟨hb, Memory.all_lt_write hall hk⟩, ih hm⟩

/-- A write of several bytes keeps the canonical form. -/
theorem Memory.wf_writeN {m : List Host.Cell} (h : Memory.wf m = true) (a n v : Nat) :
    Memory.wf (Memory.writeN m a n v) = true := by
  induction n generalizing m a v with
  | zero => exact h
  | succ n ih => exact ih (Memory.wf_write h _ _) _ _

/-- A write of a list of bytes keeps the canonical form. -/
theorem Memory.wf_writeBytes {m : List Host.Cell} (h : Memory.wf m = true) (a : Nat) (l : List Byte) :
    Memory.wf (Memory.writeBytes m a l) = true := by
  induction l generalizing m a with
  | nil => exact h
  | cons b l ih => exact ih (Memory.wf_write h _ _) _

/-- Reading a byte after a write of several: the byte of the value inside, what was there outside. -/
theorem Memory.read_writeN {m : List Host.Cell} (h : Memory.wf m = true) (a n v b : Nat) :
    Memory.read (Memory.writeN m a n v) b =
      if a ≤ b ∧ b < a + n then BitVec.ofNat 8 (v / 256 ^ (b - a)) else Memory.read m b := by
  induction n generalizing m a v with
  | zero =>
    have : ¬(a ≤ b ∧ b < a + 0) := by omega
    rw [if_neg this]; rfl
  | succ n ih =>
    rw [Memory.writeN, ih (Memory.wf_write h _ _)]
    by_cases hb : b = a
    · subst hb
      have h1 : ¬(b + 1 ≤ b ∧ b < b + 1 + n) := by omega
      have h2 : b ≤ b ∧ b < b + (n + 1) := by omega
      rw [if_neg h1, if_pos h2, Memory.read_write_same h]; simp
    · by_cases h1 : a + 1 ≤ b ∧ b < a + 1 + n
      · have h2 : a ≤ b ∧ b < a + (n + 1) := by omega
        rw [if_pos h1, if_pos h2, Nat.div_div_eq_div_mul]
        congr 2
        rw [← Nat.pow_succ']; congr 1; omega
      · have h2 : ¬(a ≤ b ∧ b < a + (n + 1)) := by omega
        rw [if_neg h1, if_neg h2, Memory.read_write_ne _ _ hb]

/-- n bytes make a number below 256 ^ n. -/
theorem Memory.readN_lt (m : List Host.Cell) (a n : Nat) : Memory.readN m a n < 256 ^ n := by
  induction n generalizing a with
  | zero => simp [Memory.readN]
  | succ n ih =>
    have h1 := ih (a + 1)
    have h2 := (Memory.read m a).isLt
    rw [Memory.readN, Nat.pow_succ]; omega

end Sys2Proof.Machine
end

