-- ==== Sys2Proof/Laws/State.lean ====
section
/-! SUPPORT. What each update of the state leaves as it was: one lemma per field and update, true by unfolding. -/
namespace Sys2Proof.Machine

/-! ### updThr -/

@[simp] theorem State.updThr_plat (s : State) (n : Nat) (f : Thread → Thread) : (s.updThr n f).plat = s.plat := rfl
@[simp] theorem State.updThr_spaused (s : State) (n : Nat) (f : Thread → Thread) : (s.updThr n f).spaused = s.spaused := rfl
@[simp] theorem State.updThr_mpaused (s : State) (n : Nat) (f : Thread → Thread) : (s.updThr n f).mpaused = s.mpaused := rfl
@[simp] theorem State.updThr_mem (s : State) (n : Nat) (f : Thread → Thread) : (s.updThr n f).mem = s.mem := rfl
@[simp] theorem State.updThr_stale (s : State) (n : Nat) (f : Thread → Thread) : (s.updThr n f).stale = s.stale := rfl
@[simp] theorem State.updThr_timers (s : State) (n : Nat) (f : Thread → Thread) : (s.updThr n f).timers = s.timers := rfl
@[simp] theorem State.updThr_chans (s : State) (n : Nat) (f : Thread → Thread) : (s.updThr n f).chans = s.chans := rfl
@[simp] theorem State.updThr_syncs (s : State) (n : Nat) (f : Thread → Thread) : (s.updThr n f).syncs = s.syncs := rfl
@[simp] theorem State.updThr_locks (s : State) (n : Nat) (f : Thread → Thread) : (s.updThr n f).locks = s.locks := rfl
@[simp] theorem State.updThr_clks (s : State) (n : Nat) (f : Thread → Thread) : (s.updThr n f).clks = s.clks := rfl
@[simp] theorem State.updThr_ports (s : State) (n : Nat) (f : Thread → Thread) : (s.updThr n f).ports = s.ports := rfl
@[simp] theorem State.updThr_reftime (s : State) (n : Nat) (f : Thread → Thread) : (s.updThr n f).reftime = s.reftime := rfl
@[simp] theorem State.updThr_refLevel (s : State) (n : Nat) (f : Thread → Thread) : (s.updThr n f).refLevel = s.refLevel := rfl
@[simp] theorem State.updThr_dbg (s : State) (n : Nat) (f : Thread → Thread) : (s.updThr n f).dbg = s.dbg := rfl
@[simp] theorem State.updThr_tid (s : State) (n : Nat) (f : Thread → Thread) : (s.updThr n f).tid = s.tid := rfl
@[simp] theorem State.updThr_pcThis (s : State) (n : Nat) (f : Thread → Thread) : (s.updThr n f).pcThis = s.pcThis := rfl
@[simp] theorem State.updThr_free (s : State) (n : Nat) (f : Thread → Thread) : (s.updThr n f).free = s.free := rfl
@[simp] theorem State.updThr_agenda (s : State) (n : Nat) (f : Thread → Thread) : (s.updThr n f).agenda = s.agenda := rfl
@[simp] theorem State.updThr_turn (s : State) (n : Nat) (f : Thread → Thread) : (s.updThr n f).turn = s.turn := rfl
@[simp] theorem State.updThr_rr (s : State) (n : Nat) (f : Thread → Thread) : (s.updThr n f).rr = s.rr := rfl
@[simp] theorem State.updThr_served (s : State) (n : Nat) (f : Thread → Thread) : (s.updThr n f).served = s.served := rfl
@[simp] theorem State.updThr_taken (s : State) (n : Nat) (f : Thread → Thread) : (s.updThr n f).taken = s.taken := rfl

/-! ### updCur -/

@[simp] theorem State.updCur_plat (s : State) (f : Thread → Thread) : (s.updCur f).plat = s.plat := rfl
@[simp] theorem State.updCur_spaused (s : State) (f : Thread → Thread) : (s.updCur f).spaused = s.spaused := rfl
@[simp] theorem State.updCur_mpaused (s : State) (f : Thread → Thread) : (s.updCur f).mpaused = s.mpaused := rfl
@[simp] theorem State.updCur_mem (s : State) (f : Thread → Thread) : (s.updCur f).mem = s.mem := rfl
@[simp] theorem State.updCur_stale (s : State) (f : Thread → Thread) : (s.updCur f).stale = s.stale := rfl
@[simp] theorem State.updCur_timers (s : State) (f : Thread → Thread) : (s.updCur f).timers = s.timers := rfl
@[simp] theorem State.updCur_chans (s : State) (f : Thread → Thread) : (s.updCur f).chans = s.chans := rfl
@[simp] theorem State.updCur_syncs (s : State) (f : Thread → Thread) : (s.updCur f).syncs = s.syncs := rfl
@[simp] theorem State.updCur_locks (s : State) (f : Thread → Thread) : (s.updCur f).locks = s.locks := rfl
@[simp] theorem State.updCur_clks (s : State) (f : Thread → Thread) : (s.updCur f).clks = s.clks := rfl
@[simp] theorem State.updCur_ports (s : State) (f : Thread → Thread) : (s.updCur f).ports = s.ports := rfl
@[simp] theorem State.updCur_reftime (s : State) (f : Thread → Thread) : (s.updCur f).reftime = s.reftime := rfl
@[simp] theorem State.updCur_refLevel (s : State) (f : Thread → Thread) : (s.updCur f).refLevel = s.refLevel := rfl
@[simp] theorem State.updCur_dbg (s : State) (f : Thread → Thread) : (s.updCur f).dbg = s.dbg := rfl
@[simp] theorem State.updCur_tid (s : State) (f : Thread → Thread) : (s.updCur f).tid = s.tid := rfl
@[simp] theorem State.updCur_pcThis (s : State) (f : Thread → Thread) : (s.updCur f).pcThis = s.pcThis := rfl
@[simp] theorem State.updCur_free (s : State) (f : Thread → Thread) : (s.updCur f).free = s.free := rfl
@[simp] theorem State.updCur_agenda (s : State) (f : Thread → Thread) : (s.updCur f).agenda = s.agenda := rfl
@[simp] theorem State.updCur_turn (s : State) (f : Thread → Thread) : (s.updCur f).turn = s.turn := rfl
@[simp] theorem State.updCur_rr (s : State) (f : Thread → Thread) : (s.updCur f).rr = s.rr := rfl
@[simp] theorem State.updCur_served (s : State) (f : Thread → Thread) : (s.updCur f).served = s.served := rfl
@[simp] theorem State.updCur_taken (s : State) (f : Thread → Thread) : (s.updCur f).taken = s.taken := rfl

/-! ### setX -/

@[simp] theorem State.setX_plat (s : State) (i : Reg) (v : Word) : (s.setX i v).plat = s.plat := rfl
@[simp] theorem State.setX_spaused (s : State) (i : Reg) (v : Word) : (s.setX i v).spaused = s.spaused := rfl
@[simp] theorem State.setX_mpaused (s : State) (i : Reg) (v : Word) : (s.setX i v).mpaused = s.mpaused := rfl
@[simp] theorem State.setX_mem (s : State) (i : Reg) (v : Word) : (s.setX i v).mem = s.mem := rfl
@[simp] theorem State.setX_stale (s : State) (i : Reg) (v : Word) : (s.setX i v).stale = s.stale := rfl
@[simp] theorem State.setX_timers (s : State) (i : Reg) (v : Word) : (s.setX i v).timers = s.timers := rfl
@[simp] theorem State.setX_chans (s : State) (i : Reg) (v : Word) : (s.setX i v).chans = s.chans := rfl
@[simp] theorem State.setX_syncs (s : State) (i : Reg) (v : Word) : (s.setX i v).syncs = s.syncs := rfl
@[simp] theorem State.setX_locks (s : State) (i : Reg) (v : Word) : (s.setX i v).locks = s.locks := rfl
@[simp] theorem State.setX_clks (s : State) (i : Reg) (v : Word) : (s.setX i v).clks = s.clks := rfl
@[simp] theorem State.setX_ports (s : State) (i : Reg) (v : Word) : (s.setX i v).ports = s.ports := rfl
@[simp] theorem State.setX_reftime (s : State) (i : Reg) (v : Word) : (s.setX i v).reftime = s.reftime := rfl
@[simp] theorem State.setX_refLevel (s : State) (i : Reg) (v : Word) : (s.setX i v).refLevel = s.refLevel := rfl
@[simp] theorem State.setX_dbg (s : State) (i : Reg) (v : Word) : (s.setX i v).dbg = s.dbg := rfl
@[simp] theorem State.setX_tid (s : State) (i : Reg) (v : Word) : (s.setX i v).tid = s.tid := rfl
@[simp] theorem State.setX_pcThis (s : State) (i : Reg) (v : Word) : (s.setX i v).pcThis = s.pcThis := rfl
@[simp] theorem State.setX_free (s : State) (i : Reg) (v : Word) : (s.setX i v).free = s.free := rfl
@[simp] theorem State.setX_agenda (s : State) (i : Reg) (v : Word) : (s.setX i v).agenda = s.agenda := rfl
@[simp] theorem State.setX_turn (s : State) (i : Reg) (v : Word) : (s.setX i v).turn = s.turn := rfl
@[simp] theorem State.setX_rr (s : State) (i : Reg) (v : Word) : (s.setX i v).rr = s.rr := rfl
@[simp] theorem State.setX_served (s : State) (i : Reg) (v : Word) : (s.setX i v).served = s.served := rfl
@[simp] theorem State.setX_taken (s : State) (i : Reg) (v : Word) : (s.setX i v).taken = s.taken := rfl

/-! ### jumpThr -/

@[simp] theorem State.jumpThr_plat (s : State) (n : Nat) (v : Word) : (s.jumpThr n v).plat = s.plat := rfl
@[simp] theorem State.jumpThr_spaused (s : State) (n : Nat) (v : Word) : (s.jumpThr n v).spaused = s.spaused := rfl
@[simp] theorem State.jumpThr_mpaused (s : State) (n : Nat) (v : Word) : (s.jumpThr n v).mpaused = s.mpaused := rfl
@[simp] theorem State.jumpThr_mem (s : State) (n : Nat) (v : Word) : (s.jumpThr n v).mem = s.mem := rfl
@[simp] theorem State.jumpThr_timers (s : State) (n : Nat) (v : Word) : (s.jumpThr n v).timers = s.timers := rfl
@[simp] theorem State.jumpThr_chans (s : State) (n : Nat) (v : Word) : (s.jumpThr n v).chans = s.chans := rfl
@[simp] theorem State.jumpThr_syncs (s : State) (n : Nat) (v : Word) : (s.jumpThr n v).syncs = s.syncs := rfl
@[simp] theorem State.jumpThr_locks (s : State) (n : Nat) (v : Word) : (s.jumpThr n v).locks = s.locks := rfl
@[simp] theorem State.jumpThr_clks (s : State) (n : Nat) (v : Word) : (s.jumpThr n v).clks = s.clks := rfl
@[simp] theorem State.jumpThr_ports (s : State) (n : Nat) (v : Word) : (s.jumpThr n v).ports = s.ports := rfl
@[simp] theorem State.jumpThr_reftime (s : State) (n : Nat) (v : Word) : (s.jumpThr n v).reftime = s.reftime := rfl
@[simp] theorem State.jumpThr_refLevel (s : State) (n : Nat) (v : Word) : (s.jumpThr n v).refLevel = s.refLevel := rfl
@[simp] theorem State.jumpThr_dbg (s : State) (n : Nat) (v : Word) : (s.jumpThr n v).dbg = s.dbg := rfl
@[simp] theorem State.jumpThr_tid (s : State) (n : Nat) (v : Word) : (s.jumpThr n v).tid = s.tid := rfl
@[simp] theorem State.jumpThr_pcThis (s : State) (n : Nat) (v : Word) : (s.jumpThr n v).pcThis = s.pcThis := rfl
@[simp] theorem State.jumpThr_free (s : State) (n : Nat) (v : Word) : (s.jumpThr n v).free = s.free := rfl
@[simp] theorem State.jumpThr_agenda (s : State) (n : Nat) (v : Word) : (s.jumpThr n v).agenda = s.agenda := rfl
@[simp] theorem State.jumpThr_turn (s : State) (n : Nat) (v : Word) : (s.jumpThr n v).turn = s.turn := rfl
@[simp] theorem State.jumpThr_rr (s : State) (n : Nat) (v : Word) : (s.jumpThr n v).rr = s.rr := rfl
@[simp] theorem State.jumpThr_served (s : State) (n : Nat) (v : Word) : (s.jumpThr n v).served = s.served := rfl
@[simp] theorem State.jumpThr_taken (s : State) (n : Nat) (v : Word) : (s.jumpThr n v).taken = s.taken := rfl

/-! ### jump -/

@[simp] theorem State.jump_plat (s : State) (v : Word) : (s.jump v).plat = s.plat := rfl
@[simp] theorem State.jump_spaused (s : State) (v : Word) : (s.jump v).spaused = s.spaused := rfl
@[simp] theorem State.jump_mpaused (s : State) (v : Word) : (s.jump v).mpaused = s.mpaused := rfl
@[simp] theorem State.jump_mem (s : State) (v : Word) : (s.jump v).mem = s.mem := rfl
@[simp] theorem State.jump_timers (s : State) (v : Word) : (s.jump v).timers = s.timers := rfl
@[simp] theorem State.jump_chans (s : State) (v : Word) : (s.jump v).chans = s.chans := rfl
@[simp] theorem State.jump_syncs (s : State) (v : Word) : (s.jump v).syncs = s.syncs := rfl
@[simp] theorem State.jump_locks (s : State) (v : Word) : (s.jump v).locks = s.locks := rfl
@[simp] theorem State.jump_clks (s : State) (v : Word) : (s.jump v).clks = s.clks := rfl
@[simp] theorem State.jump_ports (s : State) (v : Word) : (s.jump v).ports = s.ports := rfl
@[simp] theorem State.jump_reftime (s : State) (v : Word) : (s.jump v).reftime = s.reftime := rfl
@[simp] theorem State.jump_refLevel (s : State) (v : Word) : (s.jump v).refLevel = s.refLevel := rfl
@[simp] theorem State.jump_dbg (s : State) (v : Word) : (s.jump v).dbg = s.dbg := rfl
@[simp] theorem State.jump_tid (s : State) (v : Word) : (s.jump v).tid = s.tid := rfl
@[simp] theorem State.jump_pcThis (s : State) (v : Word) : (s.jump v).pcThis = s.pcThis := rfl
@[simp] theorem State.jump_free (s : State) (v : Word) : (s.jump v).free = s.free := rfl
@[simp] theorem State.jump_agenda (s : State) (v : Word) : (s.jump v).agenda = s.agenda := rfl
@[simp] theorem State.jump_turn (s : State) (v : Word) : (s.jump v).turn = s.turn := rfl
@[simp] theorem State.jump_rr (s : State) (v : Word) : (s.jump v).rr = s.rr := rfl
@[simp] theorem State.jump_served (s : State) (v : Word) : (s.jump v).served = s.served := rfl
@[simp] theorem State.jump_taken (s : State) (v : Word) : (s.jump v).taken = s.taken := rfl

/-! ### memWrite -/

@[simp] theorem State.memWrite_plat (s : State) (a : Word) (n : Nat) (v : Word) : (s.memWrite a n v).plat = s.plat := rfl
@[simp] theorem State.memWrite_threads (s : State) (a : Word) (n : Nat) (v : Word) : (s.memWrite a n v).threads = s.threads := rfl
@[simp] theorem State.memWrite_spaused (s : State) (a : Word) (n : Nat) (v : Word) : (s.memWrite a n v).spaused = s.spaused := rfl
@[simp] theorem State.memWrite_mpaused (s : State) (a : Word) (n : Nat) (v : Word) : (s.memWrite a n v).mpaused = s.mpaused := rfl
@[simp] theorem State.memWrite_timers (s : State) (a : Word) (n : Nat) (v : Word) : (s.memWrite a n v).timers = s.timers := rfl
@[simp] theorem State.memWrite_chans (s : State) (a : Word) (n : Nat) (v : Word) : (s.memWrite a n v).chans = s.chans := rfl
@[simp] theorem State.memWrite_syncs (s : State) (a : Word) (n : Nat) (v : Word) : (s.memWrite a n v).syncs = s.syncs := rfl
@[simp] theorem State.memWrite_locks (s : State) (a : Word) (n : Nat) (v : Word) : (s.memWrite a n v).locks = s.locks := rfl
@[simp] theorem State.memWrite_clks (s : State) (a : Word) (n : Nat) (v : Word) : (s.memWrite a n v).clks = s.clks := rfl
@[simp] theorem State.memWrite_ports (s : State) (a : Word) (n : Nat) (v : Word) : (s.memWrite a n v).ports = s.ports := rfl
@[simp] theorem State.memWrite_reftime (s : State) (a : Word) (n : Nat) (v : Word) : (s.memWrite a n v).reftime = s.reftime := rfl
@[simp] theorem State.memWrite_refLevel (s : State) (a : Word) (n : Nat) (v : Word) : (s.memWrite a n v).refLevel = s.refLevel := rfl
@[simp] theorem State.memWrite_dbg (s : State) (a : Word) (n : Nat) (v : Word) : (s.memWrite a n v).dbg = s.dbg := rfl
@[simp] theorem State.memWrite_tid (s : State) (a : Word) (n : Nat) (v : Word) : (s.memWrite a n v).tid = s.tid := rfl
@[simp] theorem State.memWrite_pcThis (s : State) (a : Word) (n : Nat) (v : Word) : (s.memWrite a n v).pcThis = s.pcThis := rfl
@[simp] theorem State.memWrite_free (s : State) (a : Word) (n : Nat) (v : Word) : (s.memWrite a n v).free = s.free := rfl
@[simp] theorem State.memWrite_agenda (s : State) (a : Word) (n : Nat) (v : Word) : (s.memWrite a n v).agenda = s.agenda := rfl
@[simp] theorem State.memWrite_turn (s : State) (a : Word) (n : Nat) (v : Word) : (s.memWrite a n v).turn = s.turn := rfl
@[simp] theorem State.memWrite_rr (s : State) (a : Word) (n : Nat) (v : Word) : (s.memWrite a n v).rr = s.rr := rfl
@[simp] theorem State.memWrite_served (s : State) (a : Word) (n : Nat) (v : Word) : (s.memWrite a n v).served = s.served := rfl
@[simp] theorem State.memWrite_taken (s : State) (a : Word) (n : Nat) (v : Word) : (s.memWrite a n v).taken = s.taken := rfl

/-! ### takeException -/

@[simp] theorem State.takeException_plat (s : State) (c i v : Word) : (s.takeException c i v).plat = s.plat := rfl
@[simp] theorem State.takeException_spaused (s : State) (c i v : Word) : (s.takeException c i v).spaused = s.spaused := rfl
@[simp] theorem State.takeException_mpaused (s : State) (c i v : Word) : (s.takeException c i v).mpaused = s.mpaused := rfl
@[simp] theorem State.takeException_mem (s : State) (c i v : Word) : (s.takeException c i v).mem = s.mem := rfl
@[simp] theorem State.takeException_timers (s : State) (c i v : Word) : (s.takeException c i v).timers = s.timers := rfl
@[simp] theorem State.takeException_chans (s : State) (c i v : Word) : (s.takeException c i v).chans = s.chans := rfl
@[simp] theorem State.takeException_syncs (s : State) (c i v : Word) : (s.takeException c i v).syncs = s.syncs := rfl
@[simp] theorem State.takeException_locks (s : State) (c i v : Word) : (s.takeException c i v).locks = s.locks := rfl
@[simp] theorem State.takeException_clks (s : State) (c i v : Word) : (s.takeException c i v).clks = s.clks := rfl
@[simp] theorem State.takeException_ports (s : State) (c i v : Word) : (s.takeException c i v).ports = s.ports := rfl
@[simp] theorem State.takeException_reftime (s : State) (c i v : Word) : (s.takeException c i v).reftime = s.reftime := rfl
@[simp] theorem State.takeException_refLevel (s : State) (c i v : Word) : (s.takeException c i v).refLevel = s.refLevel := rfl
@[simp] theorem State.takeException_dbg (s : State) (c i v : Word) : (s.takeException c i v).dbg = s.dbg := rfl
@[simp] theorem State.takeException_tid (s : State) (c i v : Word) : (s.takeException c i v).tid = s.tid := rfl
@[simp] theorem State.takeException_pcThis (s : State) (c i v : Word) : (s.takeException c i v).pcThis = s.pcThis := rfl
@[simp] theorem State.takeException_free (s : State) (c i v : Word) : (s.takeException c i v).free = s.free := rfl
@[simp] theorem State.takeException_agenda (s : State) (c i v : Word) : (s.takeException c i v).agenda = s.agenda := rfl
@[simp] theorem State.takeException_turn (s : State) (c i v : Word) : (s.takeException c i v).turn = s.turn := rfl
@[simp] theorem State.takeException_rr (s : State) (c i v : Word) : (s.takeException c i v).rr = s.rr := rfl
@[simp] theorem State.takeException_served (s : State) (c i v : Word) : (s.takeException c i v).served = s.served := rfl
@[simp] theorem State.takeException_taken (s : State) (c i v : Word) : (s.takeException c i v).taken = s.taken := rfl

/-! ### raise -/

@[simp] theorem State.raise_plat (s : State) (e : ExcType) (i : Word) : (s.raise e i).plat = s.plat := rfl
@[simp] theorem State.raise_spaused (s : State) (e : ExcType) (i : Word) : (s.raise e i).spaused = s.spaused := rfl
@[simp] theorem State.raise_mpaused (s : State) (e : ExcType) (i : Word) : (s.raise e i).mpaused = s.mpaused := rfl
@[simp] theorem State.raise_mem (s : State) (e : ExcType) (i : Word) : (s.raise e i).mem = s.mem := rfl
@[simp] theorem State.raise_timers (s : State) (e : ExcType) (i : Word) : (s.raise e i).timers = s.timers := rfl
@[simp] theorem State.raise_chans (s : State) (e : ExcType) (i : Word) : (s.raise e i).chans = s.chans := rfl
@[simp] theorem State.raise_syncs (s : State) (e : ExcType) (i : Word) : (s.raise e i).syncs = s.syncs := rfl
@[simp] theorem State.raise_locks (s : State) (e : ExcType) (i : Word) : (s.raise e i).locks = s.locks := rfl
@[simp] theorem State.raise_clks (s : State) (e : ExcType) (i : Word) : (s.raise e i).clks = s.clks := rfl
@[simp] theorem State.raise_ports (s : State) (e : ExcType) (i : Word) : (s.raise e i).ports = s.ports := rfl
@[simp] theorem State.raise_reftime (s : State) (e : ExcType) (i : Word) : (s.raise e i).reftime = s.reftime := rfl
@[simp] theorem State.raise_refLevel (s : State) (e : ExcType) (i : Word) : (s.raise e i).refLevel = s.refLevel := rfl
@[simp] theorem State.raise_dbg (s : State) (e : ExcType) (i : Word) : (s.raise e i).dbg = s.dbg := rfl
@[simp] theorem State.raise_tid (s : State) (e : ExcType) (i : Word) : (s.raise e i).tid = s.tid := rfl
@[simp] theorem State.raise_pcThis (s : State) (e : ExcType) (i : Word) : (s.raise e i).pcThis = s.pcThis := rfl
@[simp] theorem State.raise_free (s : State) (e : ExcType) (i : Word) : (s.raise e i).free = s.free := rfl
@[simp] theorem State.raise_agenda (s : State) (e : ExcType) (i : Word) : (s.raise e i).agenda = s.agenda := rfl
@[simp] theorem State.raise_turn (s : State) (e : ExcType) (i : Word) : (s.raise e i).turn = s.turn := rfl
@[simp] theorem State.raise_rr (s : State) (e : ExcType) (i : Word) : (s.raise e i).rr = s.rr := rfl
@[simp] theorem State.raise_served (s : State) (e : ExcType) (i : Word) : (s.raise e i).served = s.served := rfl
@[simp] theorem State.raise_taken (s : State) (e : ExcType) (i : Word) : (s.raise e i).taken = s.taken := rfl

/-! ### kernelCall -/

@[simp] theorem State.kernelCall_plat (s : State) (i : Word) : (s.kernelCall i).plat = s.plat := rfl
@[simp] theorem State.kernelCall_spaused (s : State) (i : Word) : (s.kernelCall i).spaused = s.spaused := rfl
@[simp] theorem State.kernelCall_mpaused (s : State) (i : Word) : (s.kernelCall i).mpaused = s.mpaused := rfl
@[simp] theorem State.kernelCall_mem (s : State) (i : Word) : (s.kernelCall i).mem = s.mem := rfl
@[simp] theorem State.kernelCall_timers (s : State) (i : Word) : (s.kernelCall i).timers = s.timers := rfl
@[simp] theorem State.kernelCall_chans (s : State) (i : Word) : (s.kernelCall i).chans = s.chans := rfl
@[simp] theorem State.kernelCall_syncs (s : State) (i : Word) : (s.kernelCall i).syncs = s.syncs := rfl
@[simp] theorem State.kernelCall_locks (s : State) (i : Word) : (s.kernelCall i).locks = s.locks := rfl
@[simp] theorem State.kernelCall_clks (s : State) (i : Word) : (s.kernelCall i).clks = s.clks := rfl
@[simp] theorem State.kernelCall_ports (s : State) (i : Word) : (s.kernelCall i).ports = s.ports := rfl
@[simp] theorem State.kernelCall_reftime (s : State) (i : Word) : (s.kernelCall i).reftime = s.reftime := rfl
@[simp] theorem State.kernelCall_refLevel (s : State) (i : Word) : (s.kernelCall i).refLevel = s.refLevel := rfl
@[simp] theorem State.kernelCall_dbg (s : State) (i : Word) : (s.kernelCall i).dbg = s.dbg := rfl
@[simp] theorem State.kernelCall_tid (s : State) (i : Word) : (s.kernelCall i).tid = s.tid := rfl
@[simp] theorem State.kernelCall_pcThis (s : State) (i : Word) : (s.kernelCall i).pcThis = s.pcThis := rfl
@[simp] theorem State.kernelCall_free (s : State) (i : Word) : (s.kernelCall i).free = s.free := rfl
@[simp] theorem State.kernelCall_agenda (s : State) (i : Word) : (s.kernelCall i).agenda = s.agenda := rfl
@[simp] theorem State.kernelCall_turn (s : State) (i : Word) : (s.kernelCall i).turn = s.turn := rfl
@[simp] theorem State.kernelCall_rr (s : State) (i : Word) : (s.kernelCall i).rr = s.rr := rfl
@[simp] theorem State.kernelCall_served (s : State) (i : Word) : (s.kernelCall i).served = s.served := rfl
@[simp] theorem State.kernelCall_taken (s : State) (i : Word) : (s.kernelCall i).taken = s.taken := rfl

/-! ### kernelReturn -/

@[simp] theorem State.kernelReturn_plat (s : State) : (s.kernelReturn).plat = s.plat := rfl
@[simp] theorem State.kernelReturn_spaused (s : State) : (s.kernelReturn).spaused = s.spaused := rfl
@[simp] theorem State.kernelReturn_mpaused (s : State) : (s.kernelReturn).mpaused = s.mpaused := rfl
@[simp] theorem State.kernelReturn_mem (s : State) : (s.kernelReturn).mem = s.mem := rfl
@[simp] theorem State.kernelReturn_timers (s : State) : (s.kernelReturn).timers = s.timers := rfl
@[simp] theorem State.kernelReturn_chans (s : State) : (s.kernelReturn).chans = s.chans := rfl
@[simp] theorem State.kernelReturn_syncs (s : State) : (s.kernelReturn).syncs = s.syncs := rfl
@[simp] theorem State.kernelReturn_locks (s : State) : (s.kernelReturn).locks = s.locks := rfl
@[simp] theorem State.kernelReturn_clks (s : State) : (s.kernelReturn).clks = s.clks := rfl
@[simp] theorem State.kernelReturn_ports (s : State) : (s.kernelReturn).ports = s.ports := rfl
@[simp] theorem State.kernelReturn_reftime (s : State) : (s.kernelReturn).reftime = s.reftime := rfl
@[simp] theorem State.kernelReturn_refLevel (s : State) : (s.kernelReturn).refLevel = s.refLevel := rfl
@[simp] theorem State.kernelReturn_dbg (s : State) : (s.kernelReturn).dbg = s.dbg := rfl
@[simp] theorem State.kernelReturn_tid (s : State) : (s.kernelReturn).tid = s.tid := rfl
@[simp] theorem State.kernelReturn_pcThis (s : State) : (s.kernelReturn).pcThis = s.pcThis := rfl
@[simp] theorem State.kernelReturn_free (s : State) : (s.kernelReturn).free = s.free := rfl
@[simp] theorem State.kernelReturn_agenda (s : State) : (s.kernelReturn).agenda = s.agenda := rfl
@[simp] theorem State.kernelReturn_turn (s : State) : (s.kernelReturn).turn = s.turn := rfl
@[simp] theorem State.kernelReturn_rr (s : State) : (s.kernelReturn).rr = s.rr := rfl
@[simp] theorem State.kernelReturn_served (s : State) : (s.kernelReturn).served = s.served := rfl
@[simp] theorem State.kernelReturn_taken (s : State) : (s.kernelReturn).taken = s.taken := rfl

/-! ### await -/

@[simp] theorem State.await_plat (s : State) (b : Bool) : (s.await b).plat = s.plat := rfl
@[simp] theorem State.await_spaused (s : State) (b : Bool) : (s.await b).spaused = s.spaused := rfl
@[simp] theorem State.await_mpaused (s : State) (b : Bool) : (s.await b).mpaused = s.mpaused := rfl
@[simp] theorem State.await_mem (s : State) (b : Bool) : (s.await b).mem = s.mem := rfl
@[simp] theorem State.await_stale (s : State) (b : Bool) : (s.await b).stale = s.stale := rfl
@[simp] theorem State.await_timers (s : State) (b : Bool) : (s.await b).timers = s.timers := rfl
@[simp] theorem State.await_chans (s : State) (b : Bool) : (s.await b).chans = s.chans := rfl
@[simp] theorem State.await_syncs (s : State) (b : Bool) : (s.await b).syncs = s.syncs := rfl
@[simp] theorem State.await_locks (s : State) (b : Bool) : (s.await b).locks = s.locks := rfl
@[simp] theorem State.await_clks (s : State) (b : Bool) : (s.await b).clks = s.clks := rfl
@[simp] theorem State.await_ports (s : State) (b : Bool) : (s.await b).ports = s.ports := rfl
@[simp] theorem State.await_reftime (s : State) (b : Bool) : (s.await b).reftime = s.reftime := rfl
@[simp] theorem State.await_refLevel (s : State) (b : Bool) : (s.await b).refLevel = s.refLevel := rfl
@[simp] theorem State.await_dbg (s : State) (b : Bool) : (s.await b).dbg = s.dbg := rfl
@[simp] theorem State.await_tid (s : State) (b : Bool) : (s.await b).tid = s.tid := rfl
@[simp] theorem State.await_pcThis (s : State) (b : Bool) : (s.await b).pcThis = s.pcThis := rfl
@[simp] theorem State.await_free (s : State) (b : Bool) : (s.await b).free = s.free := rfl
@[simp] theorem State.await_agenda (s : State) (b : Bool) : (s.await b).agenda = s.agenda := rfl
@[simp] theorem State.await_turn (s : State) (b : Bool) : (s.await b).turn = s.turn := rfl
@[simp] theorem State.await_rr (s : State) (b : Bool) : (s.await b).rr = s.rr := rfl
@[simp] theorem State.await_served (s : State) (b : Bool) : (s.await b).served = s.served := rfl
@[simp] theorem State.await_taken (s : State) (b : Bool) : (s.await b).taken = s.taken := rfl

/-! ### pause -/

@[simp] theorem State.pause_plat (s : State) : (s.pause).plat = s.plat := rfl
@[simp] theorem State.pause_spaused (s : State) : (s.pause).spaused = s.spaused := rfl
@[simp] theorem State.pause_mpaused (s : State) : (s.pause).mpaused = s.mpaused := rfl
@[simp] theorem State.pause_mem (s : State) : (s.pause).mem = s.mem := rfl
@[simp] theorem State.pause_stale (s : State) : (s.pause).stale = s.stale := rfl
@[simp] theorem State.pause_timers (s : State) : (s.pause).timers = s.timers := rfl
@[simp] theorem State.pause_chans (s : State) : (s.pause).chans = s.chans := rfl
@[simp] theorem State.pause_syncs (s : State) : (s.pause).syncs = s.syncs := rfl
@[simp] theorem State.pause_locks (s : State) : (s.pause).locks = s.locks := rfl
@[simp] theorem State.pause_clks (s : State) : (s.pause).clks = s.clks := rfl
@[simp] theorem State.pause_ports (s : State) : (s.pause).ports = s.ports := rfl
@[simp] theorem State.pause_reftime (s : State) : (s.pause).reftime = s.reftime := rfl
@[simp] theorem State.pause_refLevel (s : State) : (s.pause).refLevel = s.refLevel := rfl
@[simp] theorem State.pause_dbg (s : State) : (s.pause).dbg = s.dbg := rfl
@[simp] theorem State.pause_tid (s : State) : (s.pause).tid = s.tid := rfl
@[simp] theorem State.pause_pcThis (s : State) : (s.pause).pcThis = s.pcThis := rfl
@[simp] theorem State.pause_free (s : State) : (s.pause).free = s.free := rfl
@[simp] theorem State.pause_agenda (s : State) : (s.pause).agenda = s.agenda := rfl
@[simp] theorem State.pause_turn (s : State) : (s.pause).turn = s.turn := rfl
@[simp] theorem State.pause_rr (s : State) : (s.pause).rr = s.rr := rfl
@[simp] theorem State.pause_served (s : State) : (s.pause).served = s.served := rfl
@[simp] theorem State.pause_taken (s : State) : (s.pause).taken = s.taken := rfl

/-! ### updPort -/

@[simp] theorem State.updPort_plat (s : State) (n : Nat) (f : Port → Port) : (s.updPort n f).plat = s.plat := rfl
@[simp] theorem State.updPort_threads (s : State) (n : Nat) (f : Port → Port) : (s.updPort n f).threads = s.threads := rfl
@[simp] theorem State.updPort_spaused (s : State) (n : Nat) (f : Port → Port) : (s.updPort n f).spaused = s.spaused := rfl
@[simp] theorem State.updPort_mpaused (s : State) (n : Nat) (f : Port → Port) : (s.updPort n f).mpaused = s.mpaused := rfl
@[simp] theorem State.updPort_mem (s : State) (n : Nat) (f : Port → Port) : (s.updPort n f).mem = s.mem := rfl
@[simp] theorem State.updPort_stale (s : State) (n : Nat) (f : Port → Port) : (s.updPort n f).stale = s.stale := rfl
@[simp] theorem State.updPort_timers (s : State) (n : Nat) (f : Port → Port) : (s.updPort n f).timers = s.timers := rfl
@[simp] theorem State.updPort_chans (s : State) (n : Nat) (f : Port → Port) : (s.updPort n f).chans = s.chans := rfl
@[simp] theorem State.updPort_syncs (s : State) (n : Nat) (f : Port → Port) : (s.updPort n f).syncs = s.syncs := rfl
@[simp] theorem State.updPort_locks (s : State) (n : Nat) (f : Port → Port) : (s.updPort n f).locks = s.locks := rfl
@[simp] theorem State.updPort_clks (s : State) (n : Nat) (f : Port → Port) : (s.updPort n f).clks = s.clks := rfl
@[simp] theorem State.updPort_reftime (s : State) (n : Nat) (f : Port → Port) : (s.updPort n f).reftime = s.reftime := rfl
@[simp] theorem State.updPort_refLevel (s : State) (n : Nat) (f : Port → Port) : (s.updPort n f).refLevel = s.refLevel := rfl
@[simp] theorem State.updPort_dbg (s : State) (n : Nat) (f : Port → Port) : (s.updPort n f).dbg = s.dbg := rfl
@[simp] theorem State.updPort_tid (s : State) (n : Nat) (f : Port → Port) : (s.updPort n f).tid = s.tid := rfl
@[simp] theorem State.updPort_pcThis (s : State) (n : Nat) (f : Port → Port) : (s.updPort n f).pcThis = s.pcThis := rfl
@[simp] theorem State.updPort_free (s : State) (n : Nat) (f : Port → Port) : (s.updPort n f).free = s.free := rfl
@[simp] theorem State.updPort_agenda (s : State) (n : Nat) (f : Port → Port) : (s.updPort n f).agenda = s.agenda := rfl
@[simp] theorem State.updPort_turn (s : State) (n : Nat) (f : Port → Port) : (s.updPort n f).turn = s.turn := rfl
@[simp] theorem State.updPort_rr (s : State) (n : Nat) (f : Port → Port) : (s.updPort n f).rr = s.rr := rfl
@[simp] theorem State.updPort_served (s : State) (n : Nat) (f : Port → Port) : (s.updPort n f).served = s.served := rfl
@[simp] theorem State.updPort_taken (s : State) (n : Nat) (f : Port → Port) : (s.updPort n f).taken = s.taken := rfl

/-! ### updTimer -/

@[simp] theorem State.updTimer_plat (s : State) (n : Nat) (f : Timer → Timer) : (s.updTimer n f).plat = s.plat := rfl
@[simp] theorem State.updTimer_threads (s : State) (n : Nat) (f : Timer → Timer) : (s.updTimer n f).threads = s.threads := rfl
@[simp] theorem State.updTimer_spaused (s : State) (n : Nat) (f : Timer → Timer) : (s.updTimer n f).spaused = s.spaused := rfl
@[simp] theorem State.updTimer_mpaused (s : State) (n : Nat) (f : Timer → Timer) : (s.updTimer n f).mpaused = s.mpaused := rfl
@[simp] theorem State.updTimer_mem (s : State) (n : Nat) (f : Timer → Timer) : (s.updTimer n f).mem = s.mem := rfl
@[simp] theorem State.updTimer_stale (s : State) (n : Nat) (f : Timer → Timer) : (s.updTimer n f).stale = s.stale := rfl
@[simp] theorem State.updTimer_chans (s : State) (n : Nat) (f : Timer → Timer) : (s.updTimer n f).chans = s.chans := rfl
@[simp] theorem State.updTimer_syncs (s : State) (n : Nat) (f : Timer → Timer) : (s.updTimer n f).syncs = s.syncs := rfl
@[simp] theorem State.updTimer_locks (s : State) (n : Nat) (f : Timer → Timer) : (s.updTimer n f).locks = s.locks := rfl
@[simp] theorem State.updTimer_clks (s : State) (n : Nat) (f : Timer → Timer) : (s.updTimer n f).clks = s.clks := rfl
@[simp] theorem State.updTimer_ports (s : State) (n : Nat) (f : Timer → Timer) : (s.updTimer n f).ports = s.ports := rfl
@[simp] theorem State.updTimer_reftime (s : State) (n : Nat) (f : Timer → Timer) : (s.updTimer n f).reftime = s.reftime := rfl
@[simp] theorem State.updTimer_refLevel (s : State) (n : Nat) (f : Timer → Timer) : (s.updTimer n f).refLevel = s.refLevel := rfl
@[simp] theorem State.updTimer_dbg (s : State) (n : Nat) (f : Timer → Timer) : (s.updTimer n f).dbg = s.dbg := rfl
@[simp] theorem State.updTimer_tid (s : State) (n : Nat) (f : Timer → Timer) : (s.updTimer n f).tid = s.tid := rfl
@[simp] theorem State.updTimer_pcThis (s : State) (n : Nat) (f : Timer → Timer) : (s.updTimer n f).pcThis = s.pcThis := rfl
@[simp] theorem State.updTimer_free (s : State) (n : Nat) (f : Timer → Timer) : (s.updTimer n f).free = s.free := rfl
@[simp] theorem State.updTimer_agenda (s : State) (n : Nat) (f : Timer → Timer) : (s.updTimer n f).agenda = s.agenda := rfl
@[simp] theorem State.updTimer_turn (s : State) (n : Nat) (f : Timer → Timer) : (s.updTimer n f).turn = s.turn := rfl
@[simp] theorem State.updTimer_rr (s : State) (n : Nat) (f : Timer → Timer) : (s.updTimer n f).rr = s.rr := rfl
@[simp] theorem State.updTimer_served (s : State) (n : Nat) (f : Timer → Timer) : (s.updTimer n f).served = s.served := rfl
@[simp] theorem State.updTimer_taken (s : State) (n : Nat) (f : Timer → Timer) : (s.updTimer n f).taken = s.taken := rfl

/-! ### updChan -/

@[simp] theorem State.updChan_plat (s : State) (n : Nat) (f : Chanend → Chanend) : (s.updChan n f).plat = s.plat := rfl
@[simp] theorem State.updChan_threads (s : State) (n : Nat) (f : Chanend → Chanend) : (s.updChan n f).threads = s.threads := rfl
@[simp] theorem State.updChan_spaused (s : State) (n : Nat) (f : Chanend → Chanend) : (s.updChan n f).spaused = s.spaused := rfl
@[simp] theorem State.updChan_mpaused (s : State) (n : Nat) (f : Chanend → Chanend) : (s.updChan n f).mpaused = s.mpaused := rfl
@[simp] theorem State.updChan_mem (s : State) (n : Nat) (f : Chanend → Chanend) : (s.updChan n f).mem = s.mem := rfl
@[simp] theorem State.updChan_stale (s : State) (n : Nat) (f : Chanend → Chanend) : (s.updChan n f).stale = s.stale := rfl
@[simp] theorem State.updChan_timers (s : State) (n : Nat) (f : Chanend → Chanend) : (s.updChan n f).timers = s.timers := rfl
@[simp] theorem State.updChan_syncs (s : State) (n : Nat) (f : Chanend → Chanend) : (s.updChan n f).syncs = s.syncs := rfl
@[simp] theorem State.updChan_locks (s : State) (n : Nat) (f : Chanend → Chanend) : (s.updChan n f).locks = s.locks := rfl
@[simp] theorem State.updChan_clks (s : State) (n : Nat) (f : Chanend → Chanend) : (s.updChan n f).clks = s.clks := rfl
@[simp] theorem State.updChan_ports (s : State) (n : Nat) (f : Chanend → Chanend) : (s.updChan n f).ports = s.ports := rfl
@[simp] theorem State.updChan_reftime (s : State) (n : Nat) (f : Chanend → Chanend) : (s.updChan n f).reftime = s.reftime := rfl
@[simp] theorem State.updChan_refLevel (s : State) (n : Nat) (f : Chanend → Chanend) : (s.updChan n f).refLevel = s.refLevel := rfl
@[simp] theorem State.updChan_dbg (s : State) (n : Nat) (f : Chanend → Chanend) : (s.updChan n f).dbg = s.dbg := rfl
@[simp] theorem State.updChan_tid (s : State) (n : Nat) (f : Chanend → Chanend) : (s.updChan n f).tid = s.tid := rfl
@[simp] theorem State.updChan_pcThis (s : State) (n : Nat) (f : Chanend → Chanend) : (s.updChan n f).pcThis = s.pcThis := rfl
@[simp] theorem State.updChan_free (s : State) (n : Nat) (f : Chanend → Chanend) : (s.updChan n f).free = s.free := rfl
@[simp] theorem State.updChan_agenda (s : State) (n : Nat) (f : Chanend → Chanend) : (s.updChan n f).agenda = s.agenda := rfl
@[simp] theorem State.updChan_turn (s : State) (n : Nat) (f : Chanend → Chanend) : (s.updChan n f).turn = s.turn := rfl
@[simp] theorem State.updChan_rr (s : State) (n : Nat) (f : Chanend → Chanend) : (s.updChan n f).rr = s.rr := rfl
@[simp] theorem State.updChan_served (s : State) (n : Nat) (f : Chanend → Chanend) : (s.updChan n f).served = s.served := rfl
@[simp] theorem State.updChan_taken (s : State) (n : Nat) (f : Chanend → Chanend) : (s.updChan n f).taken = s.taken := rfl

/-! ### updSync -/

@[simp] theorem State.updSync_plat (s : State) (n : Nat) (f : Sync → Sync) : (s.updSync n f).plat = s.plat := rfl
@[simp] theorem State.updSync_threads (s : State) (n : Nat) (f : Sync → Sync) : (s.updSync n f).threads = s.threads := rfl
@[simp] theorem State.updSync_spaused (s : State) (n : Nat) (f : Sync → Sync) : (s.updSync n f).spaused = s.spaused := rfl
@[simp] theorem State.updSync_mpaused (s : State) (n : Nat) (f : Sync → Sync) : (s.updSync n f).mpaused = s.mpaused := rfl
@[simp] theorem State.updSync_mem (s : State) (n : Nat) (f : Sync → Sync) : (s.updSync n f).mem = s.mem := rfl
@[simp] theorem State.updSync_stale (s : State) (n : Nat) (f : Sync → Sync) : (s.updSync n f).stale = s.stale := rfl
@[simp] theorem State.updSync_timers (s : State) (n : Nat) (f : Sync → Sync) : (s.updSync n f).timers = s.timers := rfl
@[simp] theorem State.updSync_chans (s : State) (n : Nat) (f : Sync → Sync) : (s.updSync n f).chans = s.chans := rfl
@[simp] theorem State.updSync_locks (s : State) (n : Nat) (f : Sync → Sync) : (s.updSync n f).locks = s.locks := rfl
@[simp] theorem State.updSync_clks (s : State) (n : Nat) (f : Sync → Sync) : (s.updSync n f).clks = s.clks := rfl
@[simp] theorem State.updSync_ports (s : State) (n : Nat) (f : Sync → Sync) : (s.updSync n f).ports = s.ports := rfl
@[simp] theorem State.updSync_reftime (s : State) (n : Nat) (f : Sync → Sync) : (s.updSync n f).reftime = s.reftime := rfl
@[simp] theorem State.updSync_refLevel (s : State) (n : Nat) (f : Sync → Sync) : (s.updSync n f).refLevel = s.refLevel := rfl
@[simp] theorem State.updSync_dbg (s : State) (n : Nat) (f : Sync → Sync) : (s.updSync n f).dbg = s.dbg := rfl
@[simp] theorem State.updSync_tid (s : State) (n : Nat) (f : Sync → Sync) : (s.updSync n f).tid = s.tid := rfl
@[simp] theorem State.updSync_pcThis (s : State) (n : Nat) (f : Sync → Sync) : (s.updSync n f).pcThis = s.pcThis := rfl
@[simp] theorem State.updSync_free (s : State) (n : Nat) (f : Sync → Sync) : (s.updSync n f).free = s.free := rfl
@[simp] theorem State.updSync_agenda (s : State) (n : Nat) (f : Sync → Sync) : (s.updSync n f).agenda = s.agenda := rfl
@[simp] theorem State.updSync_turn (s : State) (n : Nat) (f : Sync → Sync) : (s.updSync n f).turn = s.turn := rfl
@[simp] theorem State.updSync_rr (s : State) (n : Nat) (f : Sync → Sync) : (s.updSync n f).rr = s.rr := rfl
@[simp] theorem State.updSync_served (s : State) (n : Nat) (f : Sync → Sync) : (s.updSync n f).served = s.served := rfl
@[simp] theorem State.updSync_taken (s : State) (n : Nat) (f : Sync → Sync) : (s.updSync n f).taken = s.taken := rfl

/-! ### updLock -/

@[simp] theorem State.updLock_plat (s : State) (n : Nat) (f : Lock → Lock) : (s.updLock n f).plat = s.plat := rfl
@[simp] theorem State.updLock_threads (s : State) (n : Nat) (f : Lock → Lock) : (s.updLock n f).threads = s.threads := rfl
@[simp] theorem State.updLock_spaused (s : State) (n : Nat) (f : Lock → Lock) : (s.updLock n f).spaused = s.spaused := rfl
@[simp] theorem State.updLock_mpaused (s : State) (n : Nat) (f : Lock → Lock) : (s.updLock n f).mpaused = s.mpaused := rfl
@[simp] theorem State.updLock_mem (s : State) (n : Nat) (f : Lock → Lock) : (s.updLock n f).mem = s.mem := rfl
@[simp] theorem State.updLock_stale (s : State) (n : Nat) (f : Lock → Lock) : (s.updLock n f).stale = s.stale := rfl
@[simp] theorem State.updLock_timers (s : State) (n : Nat) (f : Lock → Lock) : (s.updLock n f).timers = s.timers := rfl
@[simp] theorem State.updLock_chans (s : State) (n : Nat) (f : Lock → Lock) : (s.updLock n f).chans = s.chans := rfl
@[simp] theorem State.updLock_syncs (s : State) (n : Nat) (f : Lock → Lock) : (s.updLock n f).syncs = s.syncs := rfl
@[simp] theorem State.updLock_clks (s : State) (n : Nat) (f : Lock → Lock) : (s.updLock n f).clks = s.clks := rfl
@[simp] theorem State.updLock_ports (s : State) (n : Nat) (f : Lock → Lock) : (s.updLock n f).ports = s.ports := rfl
@[simp] theorem State.updLock_reftime (s : State) (n : Nat) (f : Lock → Lock) : (s.updLock n f).reftime = s.reftime := rfl
@[simp] theorem State.updLock_refLevel (s : State) (n : Nat) (f : Lock → Lock) : (s.updLock n f).refLevel = s.refLevel := rfl
@[simp] theorem State.updLock_dbg (s : State) (n : Nat) (f : Lock → Lock) : (s.updLock n f).dbg = s.dbg := rfl
@[simp] theorem State.updLock_tid (s : State) (n : Nat) (f : Lock → Lock) : (s.updLock n f).tid = s.tid := rfl
@[simp] theorem State.updLock_pcThis (s : State) (n : Nat) (f : Lock → Lock) : (s.updLock n f).pcThis = s.pcThis := rfl
@[simp] theorem State.updLock_free (s : State) (n : Nat) (f : Lock → Lock) : (s.updLock n f).free = s.free := rfl
@[simp] theorem State.updLock_agenda (s : State) (n : Nat) (f : Lock → Lock) : (s.updLock n f).agenda = s.agenda := rfl
@[simp] theorem State.updLock_turn (s : State) (n : Nat) (f : Lock → Lock) : (s.updLock n f).turn = s.turn := rfl
@[simp] theorem State.updLock_rr (s : State) (n : Nat) (f : Lock → Lock) : (s.updLock n f).rr = s.rr := rfl
@[simp] theorem State.updLock_served (s : State) (n : Nat) (f : Lock → Lock) : (s.updLock n f).served = s.served := rfl
@[simp] theorem State.updLock_taken (s : State) (n : Nat) (f : Lock → Lock) : (s.updLock n f).taken = s.taken := rfl

/-! ### updClk -/

@[simp] theorem State.updClk_plat (s : State) (n : Nat) (f : ClockBlock → ClockBlock) : (s.updClk n f).plat = s.plat := rfl
@[simp] theorem State.updClk_threads (s : State) (n : Nat) (f : ClockBlock → ClockBlock) : (s.updClk n f).threads = s.threads := rfl
@[simp] theorem State.updClk_spaused (s : State) (n : Nat) (f : ClockBlock → ClockBlock) : (s.updClk n f).spaused = s.spaused := rfl
@[simp] theorem State.updClk_mpaused (s : State) (n : Nat) (f : ClockBlock → ClockBlock) : (s.updClk n f).mpaused = s.mpaused := rfl
@[simp] theorem State.updClk_mem (s : State) (n : Nat) (f : ClockBlock → ClockBlock) : (s.updClk n f).mem = s.mem := rfl
@[simp] theorem State.updClk_stale (s : State) (n : Nat) (f : ClockBlock → ClockBlock) : (s.updClk n f).stale = s.stale := rfl
@[simp] theorem State.updClk_timers (s : State) (n : Nat) (f : ClockBlock → ClockBlock) : (s.updClk n f).timers = s.timers := rfl
@[simp] theorem State.updClk_chans (s : State) (n : Nat) (f : ClockBlock → ClockBlock) : (s.updClk n f).chans = s.chans := rfl
@[simp] theorem State.updClk_syncs (s : State) (n : Nat) (f : ClockBlock → ClockBlock) : (s.updClk n f).syncs = s.syncs := rfl
@[simp] theorem State.updClk_locks (s : State) (n : Nat) (f : ClockBlock → ClockBlock) : (s.updClk n f).locks = s.locks := rfl
@[simp] theorem State.updClk_ports (s : State) (n : Nat) (f : ClockBlock → ClockBlock) : (s.updClk n f).ports = s.ports := rfl
@[simp] theorem State.updClk_reftime (s : State) (n : Nat) (f : ClockBlock → ClockBlock) : (s.updClk n f).reftime = s.reftime := rfl
@[simp] theorem State.updClk_refLevel (s : State) (n : Nat) (f : ClockBlock → ClockBlock) : (s.updClk n f).refLevel = s.refLevel := rfl
@[simp] theorem State.updClk_dbg (s : State) (n : Nat) (f : ClockBlock → ClockBlock) : (s.updClk n f).dbg = s.dbg := rfl
@[simp] theorem State.updClk_tid (s : State) (n : Nat) (f : ClockBlock → ClockBlock) : (s.updClk n f).tid = s.tid := rfl
@[simp] theorem State.updClk_pcThis (s : State) (n : Nat) (f : ClockBlock → ClockBlock) : (s.updClk n f).pcThis = s.pcThis := rfl
@[simp] theorem State.updClk_free (s : State) (n : Nat) (f : ClockBlock → ClockBlock) : (s.updClk n f).free = s.free := rfl
@[simp] theorem State.updClk_agenda (s : State) (n : Nat) (f : ClockBlock → ClockBlock) : (s.updClk n f).agenda = s.agenda := rfl
@[simp] theorem State.updClk_turn (s : State) (n : Nat) (f : ClockBlock → ClockBlock) : (s.updClk n f).turn = s.turn := rfl
@[simp] theorem State.updClk_rr (s : State) (n : Nat) (f : ClockBlock → ClockBlock) : (s.updClk n f).rr = s.rr := rfl
@[simp] theorem State.updClk_served (s : State) (n : Nat) (f : ClockBlock → ClockBlock) : (s.updClk n f).served = s.served := rfl
@[simp] theorem State.updClk_taken (s : State) (n : Nat) (f : ClockBlock → ClockBlock) : (s.updClk n f).taken = s.taken := rfl

/-! ### clearWaiter -/

@[simp] theorem State.clearWaiter_plat (s : State) (t : Nat) : (s.clearWaiter t).plat = s.plat := rfl
@[simp] theorem State.clearWaiter_threads (s : State) (t : Nat) : (s.clearWaiter t).threads = s.threads := rfl
@[simp] theorem State.clearWaiter_spaused (s : State) (t : Nat) : (s.clearWaiter t).spaused = s.spaused := rfl
@[simp] theorem State.clearWaiter_mpaused (s : State) (t : Nat) : (s.clearWaiter t).mpaused = s.mpaused := rfl
@[simp] theorem State.clearWaiter_mem (s : State) (t : Nat) : (s.clearWaiter t).mem = s.mem := rfl
@[simp] theorem State.clearWaiter_stale (s : State) (t : Nat) : (s.clearWaiter t).stale = s.stale := rfl
@[simp] theorem State.clearWaiter_syncs (s : State) (t : Nat) : (s.clearWaiter t).syncs = s.syncs := rfl
@[simp] theorem State.clearWaiter_locks (s : State) (t : Nat) : (s.clearWaiter t).locks = s.locks := rfl
@[simp] theorem State.clearWaiter_clks (s : State) (t : Nat) : (s.clearWaiter t).clks = s.clks := rfl
@[simp] theorem State.clearWaiter_reftime (s : State) (t : Nat) : (s.clearWaiter t).reftime = s.reftime := rfl
@[simp] theorem State.clearWaiter_refLevel (s : State) (t : Nat) : (s.clearWaiter t).refLevel = s.refLevel := rfl
@[simp] theorem State.clearWaiter_dbg (s : State) (t : Nat) : (s.clearWaiter t).dbg = s.dbg := rfl
@[simp] theorem State.clearWaiter_tid (s : State) (t : Nat) : (s.clearWaiter t).tid = s.tid := rfl
@[simp] theorem State.clearWaiter_pcThis (s : State) (t : Nat) : (s.clearWaiter t).pcThis = s.pcThis := rfl
@[simp] theorem State.clearWaiter_free (s : State) (t : Nat) : (s.clearWaiter t).free = s.free := rfl
@[simp] theorem State.clearWaiter_agenda (s : State) (t : Nat) : (s.clearWaiter t).agenda = s.agenda := rfl
@[simp] theorem State.clearWaiter_turn (s : State) (t : Nat) : (s.clearWaiter t).turn = s.turn := rfl
@[simp] theorem State.clearWaiter_rr (s : State) (t : Nat) : (s.clearWaiter t).rr = s.rr := rfl
@[simp] theorem State.clearWaiter_served (s : State) (t : Nat) : (s.clearWaiter t).served = s.served := rfl
@[simp] theorem State.clearWaiter_taken (s : State) (t : Nat) : (s.clearWaiter t).taken = s.taken := rfl

/-! ### detach -/

@[simp] theorem State.detach_plat (s : State) (t : Nat) : (s.detach t).plat = s.plat := rfl
@[simp] theorem State.detach_threads (s : State) (t : Nat) : (s.detach t).threads = s.threads := rfl
@[simp] theorem State.detach_spaused (s : State) (t : Nat) : (s.detach t).spaused = s.spaused := rfl
@[simp] theorem State.detach_mpaused (s : State) (t : Nat) : (s.detach t).mpaused = s.mpaused := rfl
@[simp] theorem State.detach_mem (s : State) (t : Nat) : (s.detach t).mem = s.mem := rfl
@[simp] theorem State.detach_stale (s : State) (t : Nat) : (s.detach t).stale = s.stale := rfl
@[simp] theorem State.detach_syncs (s : State) (t : Nat) : (s.detach t).syncs = s.syncs := rfl
@[simp] theorem State.detach_clks (s : State) (t : Nat) : (s.detach t).clks = s.clks := rfl
@[simp] theorem State.detach_reftime (s : State) (t : Nat) : (s.detach t).reftime = s.reftime := rfl
@[simp] theorem State.detach_refLevel (s : State) (t : Nat) : (s.detach t).refLevel = s.refLevel := rfl
@[simp] theorem State.detach_dbg (s : State) (t : Nat) : (s.detach t).dbg = s.dbg := rfl
@[simp] theorem State.detach_tid (s : State) (t : Nat) : (s.detach t).tid = s.tid := rfl
@[simp] theorem State.detach_pcThis (s : State) (t : Nat) : (s.detach t).pcThis = s.pcThis := rfl
@[simp] theorem State.detach_free (s : State) (t : Nat) : (s.detach t).free = s.free := rfl
@[simp] theorem State.detach_agenda (s : State) (t : Nat) : (s.detach t).agenda = s.agenda := rfl
@[simp] theorem State.detach_turn (s : State) (t : Nat) : (s.detach t).turn = s.turn := rfl
@[simp] theorem State.detach_rr (s : State) (t : Nat) : (s.detach t).rr = s.rr := rfl
@[simp] theorem State.detach_served (s : State) (t : Nat) : (s.detach t).served = s.served := rfl
@[simp] theorem State.detach_taken (s : State) (t : Nat) : (s.detach t).taken = s.taken := rfl

/-! ### resumeThr -/

@[simp] theorem State.resumeThr_plat (s : State) (t : Nat) : (s.resumeThr t).plat = s.plat := rfl
@[simp] theorem State.resumeThr_spaused (s : State) (t : Nat) : (s.resumeThr t).spaused = s.spaused := rfl
@[simp] theorem State.resumeThr_mpaused (s : State) (t : Nat) : (s.resumeThr t).mpaused = s.mpaused := rfl
@[simp] theorem State.resumeThr_mem (s : State) (t : Nat) : (s.resumeThr t).mem = s.mem := rfl
@[simp] theorem State.resumeThr_stale (s : State) (t : Nat) : (s.resumeThr t).stale = s.stale := rfl
@[simp] theorem State.resumeThr_syncs (s : State) (t : Nat) : (s.resumeThr t).syncs = s.syncs := rfl
@[simp] theorem State.resumeThr_locks (s : State) (t : Nat) : (s.resumeThr t).locks = s.locks := rfl
@[simp] theorem State.resumeThr_clks (s : State) (t : Nat) : (s.resumeThr t).clks = s.clks := rfl
@[simp] theorem State.resumeThr_reftime (s : State) (t : Nat) : (s.resumeThr t).reftime = s.reftime := rfl
@[simp] theorem State.resumeThr_refLevel (s : State) (t : Nat) : (s.resumeThr t).refLevel = s.refLevel := rfl
@[simp] theorem State.resumeThr_dbg (s : State) (t : Nat) : (s.resumeThr t).dbg = s.dbg := rfl
@[simp] theorem State.resumeThr_tid (s : State) (t : Nat) : (s.resumeThr t).tid = s.tid := rfl
@[simp] theorem State.resumeThr_pcThis (s : State) (t : Nat) : (s.resumeThr t).pcThis = s.pcThis := rfl
@[simp] theorem State.resumeThr_free (s : State) (t : Nat) : (s.resumeThr t).free = s.free := rfl
@[simp] theorem State.resumeThr_agenda (s : State) (t : Nat) : (s.resumeThr t).agenda = s.agenda := rfl
@[simp] theorem State.resumeThr_turn (s : State) (t : Nat) : (s.resumeThr t).turn = s.turn := rfl
@[simp] theorem State.resumeThr_rr (s : State) (t : Nat) : (s.resumeThr t).rr = s.rr := rfl
@[simp] theorem State.resumeThr_served (s : State) (t : Nat) : (s.resumeThr t).served = s.served := rfl
@[simp] theorem State.resumeThr_taken (s : State) (t : Nat) : (s.resumeThr t).taken = s.taken := rfl

/-! ### debugEnter -/

@[simp] theorem State.debugEnter_plat (s : State) (c : Word) : (s.debugEnter c).plat = s.plat := rfl
@[simp] theorem State.debugEnter_spaused (s : State) (c : Word) : (s.debugEnter c).spaused = s.spaused := rfl
@[simp] theorem State.debugEnter_mpaused (s : State) (c : Word) : (s.debugEnter c).mpaused = s.mpaused := rfl
@[simp] theorem State.debugEnter_mem (s : State) (c : Word) : (s.debugEnter c).mem = s.mem := rfl
@[simp] theorem State.debugEnter_syncs (s : State) (c : Word) : (s.debugEnter c).syncs = s.syncs := rfl
@[simp] theorem State.debugEnter_clks (s : State) (c : Word) : (s.debugEnter c).clks = s.clks := rfl
@[simp] theorem State.debugEnter_reftime (s : State) (c : Word) : (s.debugEnter c).reftime = s.reftime := rfl
@[simp] theorem State.debugEnter_refLevel (s : State) (c : Word) : (s.debugEnter c).refLevel = s.refLevel := rfl
@[simp] theorem State.debugEnter_tid (s : State) (c : Word) : (s.debugEnter c).tid = s.tid := rfl
@[simp] theorem State.debugEnter_pcThis (s : State) (c : Word) : (s.debugEnter c).pcThis = s.pcThis := rfl
@[simp] theorem State.debugEnter_free (s : State) (c : Word) : (s.debugEnter c).free = s.free := rfl
@[simp] theorem State.debugEnter_agenda (s : State) (c : Word) : (s.debugEnter c).agenda = s.agenda := rfl
@[simp] theorem State.debugEnter_turn (s : State) (c : Word) : (s.debugEnter c).turn = s.turn := rfl
@[simp] theorem State.debugEnter_rr (s : State) (c : Word) : (s.debugEnter c).rr = s.rr := rfl
@[simp] theorem State.debugEnter_served (s : State) (c : Word) : (s.debugEnter c).served = s.served := rfl
@[simp] theorem State.debugEnter_taken (s : State) (c : Word) : (s.debugEnter c).taken = s.taken := rfl

/-! ### release -/

@[simp] theorem State.release_plat (s : State) (ts : List Nat) : (s.release ts).plat = s.plat := rfl
@[simp] theorem State.release_threads (s : State) (ts : List Nat) : (s.release ts).threads = s.threads := rfl
@[simp] theorem State.release_mpaused (s : State) (ts : List Nat) : (s.release ts).mpaused = s.mpaused := rfl
@[simp] theorem State.release_mem (s : State) (ts : List Nat) : (s.release ts).mem = s.mem := rfl
@[simp] theorem State.release_stale (s : State) (ts : List Nat) : (s.release ts).stale = s.stale := rfl
@[simp] theorem State.release_timers (s : State) (ts : List Nat) : (s.release ts).timers = s.timers := rfl
@[simp] theorem State.release_chans (s : State) (ts : List Nat) : (s.release ts).chans = s.chans := rfl
@[simp] theorem State.release_syncs (s : State) (ts : List Nat) : (s.release ts).syncs = s.syncs := rfl
@[simp] theorem State.release_locks (s : State) (ts : List Nat) : (s.release ts).locks = s.locks := rfl
@[simp] theorem State.release_clks (s : State) (ts : List Nat) : (s.release ts).clks = s.clks := rfl
@[simp] theorem State.release_ports (s : State) (ts : List Nat) : (s.release ts).ports = s.ports := rfl
@[simp] theorem State.release_reftime (s : State) (ts : List Nat) : (s.release ts).reftime = s.reftime := rfl
@[simp] theorem State.release_refLevel (s : State) (ts : List Nat) : (s.release ts).refLevel = s.refLevel := rfl
@[simp] theorem State.release_dbg (s : State) (ts : List Nat) : (s.release ts).dbg = s.dbg := rfl
@[simp] theorem State.release_tid (s : State) (ts : List Nat) : (s.release ts).tid = s.tid := rfl
@[simp] theorem State.release_pcThis (s : State) (ts : List Nat) : (s.release ts).pcThis = s.pcThis := rfl
@[simp] theorem State.release_free (s : State) (ts : List Nat) : (s.release ts).free = s.free := rfl
@[simp] theorem State.release_agenda (s : State) (ts : List Nat) : (s.release ts).agenda = s.agenda := rfl
@[simp] theorem State.release_turn (s : State) (ts : List Nat) : (s.release ts).turn = s.turn := rfl
@[simp] theorem State.release_rr (s : State) (ts : List Nat) : (s.release ts).rr = s.rr := rfl
@[simp] theorem State.release_served (s : State) (ts : List Nat) : (s.release ts).served = s.served := rfl
@[simp] theorem State.release_taken (s : State) (ts : List Nat) : (s.release ts).taken = s.taken := rfl

/-! ### startThreads -/

@[simp] theorem State.startThreads_plat (s : State) (ts : List Nat) : (s.startThreads ts).plat = s.plat := rfl
@[simp] theorem State.startThreads_threads (s : State) (ts : List Nat) : (s.startThreads ts).threads = s.threads := rfl
@[simp] theorem State.startThreads_mpaused (s : State) (ts : List Nat) : (s.startThreads ts).mpaused = s.mpaused := rfl
@[simp] theorem State.startThreads_mem (s : State) (ts : List Nat) : (s.startThreads ts).mem = s.mem := rfl
@[simp] theorem State.startThreads_timers (s : State) (ts : List Nat) : (s.startThreads ts).timers = s.timers := rfl
@[simp] theorem State.startThreads_chans (s : State) (ts : List Nat) : (s.startThreads ts).chans = s.chans := rfl
@[simp] theorem State.startThreads_syncs (s : State) (ts : List Nat) : (s.startThreads ts).syncs = s.syncs := rfl
@[simp] theorem State.startThreads_locks (s : State) (ts : List Nat) : (s.startThreads ts).locks = s.locks := rfl
@[simp] theorem State.startThreads_clks (s : State) (ts : List Nat) : (s.startThreads ts).clks = s.clks := rfl
@[simp] theorem State.startThreads_ports (s : State) (ts : List Nat) : (s.startThreads ts).ports = s.ports := rfl
@[simp] theorem State.startThreads_reftime (s : State) (ts : List Nat) : (s.startThreads ts).reftime = s.reftime := rfl
@[simp] theorem State.startThreads_refLevel (s : State) (ts : List Nat) : (s.startThreads ts).refLevel = s.refLevel := rfl
@[simp] theorem State.startThreads_dbg (s : State) (ts : List Nat) : (s.startThreads ts).dbg = s.dbg := rfl
@[simp] theorem State.startThreads_tid (s : State) (ts : List Nat) : (s.startThreads ts).tid = s.tid := rfl
@[simp] theorem State.startThreads_pcThis (s : State) (ts : List Nat) : (s.startThreads ts).pcThis = s.pcThis := rfl
@[simp] theorem State.startThreads_free (s : State) (ts : List Nat) : (s.startThreads ts).free = s.free := rfl
@[simp] theorem State.startThreads_agenda (s : State) (ts : List Nat) : (s.startThreads ts).agenda = s.agenda := rfl
@[simp] theorem State.startThreads_turn (s : State) (ts : List Nat) : (s.startThreads ts).turn = s.turn := rfl
@[simp] theorem State.startThreads_rr (s : State) (ts : List Nat) : (s.startThreads ts).rr = s.rr := rfl
@[simp] theorem State.startThreads_served (s : State) (ts : List Nat) : (s.startThreads ts).served = s.served := rfl
@[simp] theorem State.startThreads_taken (s : State) (ts : List Nat) : (s.startThreads ts).taken = s.taken := rfl

/-! ### clearEeble -/

@[simp] theorem State.clearEeble_plat (s : State) : (s.clearEeble).plat = s.plat := rfl
@[simp] theorem State.clearEeble_spaused (s : State) : (s.clearEeble).spaused = s.spaused := rfl
@[simp] theorem State.clearEeble_mpaused (s : State) : (s.clearEeble).mpaused = s.mpaused := rfl
@[simp] theorem State.clearEeble_mem (s : State) : (s.clearEeble).mem = s.mem := rfl
@[simp] theorem State.clearEeble_stale (s : State) : (s.clearEeble).stale = s.stale := rfl
@[simp] theorem State.clearEeble_timers (s : State) : (s.clearEeble).timers = s.timers := rfl
@[simp] theorem State.clearEeble_chans (s : State) : (s.clearEeble).chans = s.chans := rfl
@[simp] theorem State.clearEeble_syncs (s : State) : (s.clearEeble).syncs = s.syncs := rfl
@[simp] theorem State.clearEeble_locks (s : State) : (s.clearEeble).locks = s.locks := rfl
@[simp] theorem State.clearEeble_clks (s : State) : (s.clearEeble).clks = s.clks := rfl
@[simp] theorem State.clearEeble_ports (s : State) : (s.clearEeble).ports = s.ports := rfl
@[simp] theorem State.clearEeble_reftime (s : State) : (s.clearEeble).reftime = s.reftime := rfl
@[simp] theorem State.clearEeble_refLevel (s : State) : (s.clearEeble).refLevel = s.refLevel := rfl
@[simp] theorem State.clearEeble_dbg (s : State) : (s.clearEeble).dbg = s.dbg := rfl
@[simp] theorem State.clearEeble_tid (s : State) : (s.clearEeble).tid = s.tid := rfl
@[simp] theorem State.clearEeble_pcThis (s : State) : (s.clearEeble).pcThis = s.pcThis := rfl
@[simp] theorem State.clearEeble_free (s : State) : (s.clearEeble).free = s.free := rfl
@[simp] theorem State.clearEeble_agenda (s : State) : (s.clearEeble).agenda = s.agenda := rfl
@[simp] theorem State.clearEeble_turn (s : State) : (s.clearEeble).turn = s.turn := rfl
@[simp] theorem State.clearEeble_rr (s : State) : (s.clearEeble).rr = s.rr := rfl
@[simp] theorem State.clearEeble_served (s : State) : (s.clearEeble).served = s.served := rfl
@[simp] theorem State.clearEeble_taken (s : State) : (s.clearEeble).taken = s.taken := rfl

/-! ### updEs -/

@[simp] theorem State.updEs_plat (s : State) (r : ResRef) (f : EventState → EventState) : (s.updEs r f).plat = s.plat := by
  cases r <;> rfl
@[simp] theorem State.updEs_threads (s : State) (r : ResRef) (f : EventState → EventState) : (s.updEs r f).threads = s.threads := by
  cases r <;> rfl
@[simp] theorem State.updEs_spaused (s : State) (r : ResRef) (f : EventState → EventState) : (s.updEs r f).spaused = s.spaused := by
  cases r <;> rfl
@[simp] theorem State.updEs_mpaused (s : State) (r : ResRef) (f : EventState → EventState) : (s.updEs r f).mpaused = s.mpaused := by
  cases r <;> rfl
@[simp] theorem State.updEs_mem (s : State) (r : ResRef) (f : EventState → EventState) : (s.updEs r f).mem = s.mem := by
  cases r <;> rfl
@[simp] theorem State.updEs_stale (s : State) (r : ResRef) (f : EventState → EventState) : (s.updEs r f).stale = s.stale := by
  cases r <;> rfl
@[simp] theorem State.updEs_syncs (s : State) (r : ResRef) (f : EventState → EventState) : (s.updEs r f).syncs = s.syncs := by
  cases r <;> rfl
@[simp] theorem State.updEs_locks (s : State) (r : ResRef) (f : EventState → EventState) : (s.updEs r f).locks = s.locks := by
  cases r <;> rfl
@[simp] theorem State.updEs_clks (s : State) (r : ResRef) (f : EventState → EventState) : (s.updEs r f).clks = s.clks := by
  cases r <;> rfl
@[simp] theorem State.updEs_reftime (s : State) (r : ResRef) (f : EventState → EventState) : (s.updEs r f).reftime = s.reftime := by
  cases r <;> rfl
@[simp] theorem State.updEs_refLevel (s : State) (r : ResRef) (f : EventState → EventState) : (s.updEs r f).refLevel = s.refLevel := by
  cases r <;> rfl
@[simp] theorem State.updEs_dbg (s : State) (r : ResRef) (f : EventState → EventState) : (s.updEs r f).dbg = s.dbg := by
  cases r <;> rfl
@[simp] theorem State.updEs_tid (s : State) (r : ResRef) (f : EventState → EventState) : (s.updEs r f).tid = s.tid := by
  cases r <;> rfl
@[simp] theorem State.updEs_pcThis (s : State) (r : ResRef) (f : EventState → EventState) : (s.updEs r f).pcThis = s.pcThis := by
  cases r <;> rfl
@[simp] theorem State.updEs_free (s : State) (r : ResRef) (f : EventState → EventState) : (s.updEs r f).free = s.free := by
  cases r <;> rfl
@[simp] theorem State.updEs_agenda (s : State) (r : ResRef) (f : EventState → EventState) : (s.updEs r f).agenda = s.agenda := by
  cases r <;> rfl
@[simp] theorem State.updEs_turn (s : State) (r : ResRef) (f : EventState → EventState) : (s.updEs r f).turn = s.turn := by
  cases r <;> rfl
@[simp] theorem State.updEs_rr (s : State) (r : ResRef) (f : EventState → EventState) : (s.updEs r f).rr = s.rr := by
  cases r <;> rfl
@[simp] theorem State.updEs_served (s : State) (r : ResRef) (f : EventState → EventState) : (s.updEs r f).served = s.served := by
  cases r <;> rfl
@[simp] theorem State.updEs_taken (s : State) (r : ResRef) (f : EventState → EventState) : (s.updEs r f).taken = s.taken := by
  cases r <;> rfl

/-! ### Thread.put: a register write leaves the rest of the thread -/

@[simp] theorem Thread.put_inuse (t : Thread) (i : Reg) (v : Word) : (t.put i v).inuse = t.inuse := rfl
@[simp] theorem Thread.put_pc (t : Thread) (i : Reg) (v : Word) : (t.put i v).pc = t.pc := rfl
@[simp] theorem Thread.put_sr (t : Thread) (i : Reg) (v : Word) : (t.put i v).sr = t.sr := rfl
@[simp] theorem Thread.put_spc (t : Thread) (i : Reg) (v : Word) : (t.put i v).spc = t.spc := rfl
@[simp] theorem Thread.put_ssr (t : Thread) (i : Reg) (v : Word) : (t.put i v).ssr = t.ssr := rfl
@[simp] theorem Thread.put_et (t : Thread) (i : Reg) (v : Word) : (t.put i v).et = t.et := rfl
@[simp] theorem Thread.put_ed (t : Thread) (i : Reg) (v : Word) : (t.put i v).ed = t.ed := rfl
@[simp] theorem Thread.put_sed (t : Thread) (i : Reg) (v : Word) : (t.put i v).sed = t.sed := rfl
@[simp] theorem Thread.put_kep (t : Thread) (i : Reg) (v : Word) : (t.put i v).kep = t.kep := rfl
@[simp] theorem Thread.put_ksp (t : Thread) (i : Reg) (v : Word) : (t.put i v).ksp = t.ksp := rfl
@[simp] theorem Thread.put_syn (t : Thread) (i : Reg) (v : Word) : (t.put i v).syn = t.syn := rfl
@[simp] theorem Thread.put_evwait (t : Thread) (i : Reg) (v : Word) : (t.put i v).evwait = t.evwait := rfl

end Sys2Proof.Machine
end

