-- ==== Sys2Proof/Laws/Frames.lean ====
section
/-! SUPPORT. The updates of State said as replacements of one element, and the reads after them: the lemmas that take
the operations to the frames of Sys2Proof/Safety.lean. -/
namespace Sys2Proof.Machine

/-- Changing one element of a list is setting it. -/
theorem modify_eq_set_getD {α : Type} (l : List α) (n : Nat) (f : α → α) (d : α) :
    l.modify n f = l.set n (f (l.getD n d)) := by
  induction l generalizing n with
  | nil => simp
  | cons a l ih =>
    cases n with
    | zero => simp
    | succ n => simpa using ih n

/-- Setting an element to what it is changes nothing. -/
theorem set_getD_self {α : Type} (l : List α) (n : Nat) (d : α) : l.set n (l.getD n d) = l := by
  induction l generalizing n with
  | nil => simp
  | cons a l ih =>
    cases n with
    | zero => simp
    | succ n => simpa using ih n

/-- Reading an element after setting one. -/
theorem getD_set {α : Type} (l : List α) (n k : Nat) (a d : α) :
    (l.set n a).getD k d = if n = k ∧ k < l.length then a else l.getD k d := by
  induction l generalizing n k with
  | nil => simp
  | cons b l ih =>
    cases n <;> cases k <;> simp_all

/-! ## Updates are replacements -/

theorem State.updThr_eq (s : State) (n : Nat) (f : Thread → Thread) : s.updThr n f = s.withThr n (f (s.thr n)) := by
  simp [State.updThr, State.withThr, State.thr, modify_eq_set_getD _ _ _ Thread.blank]

theorem State.updPort_eq (s : State) (n : Nat) (f : Port → Port) : s.updPort n f = s.withPortN n (f (s.port n)) := by
  simp [State.updPort, State.withPortN, State.port, modify_eq_set_getD _ _ _ Port.absent]

theorem State.updTimer_eq (s : State) (n : Nat) (f : Timer → Timer) :
    s.updTimer n f = s.withTimerN n (f (s.timer n)) := by
  simp [State.updTimer, State.withTimerN, State.timer, modify_eq_set_getD _ _ _ Timer.blank]

theorem State.updChan_eq (s : State) (n : Nat) (f : Chanend → Chanend) :
    s.updChan n f = s.withChanN n (f (s.chan n)) := by
  simp [State.updChan, State.withChanN, State.chan, modify_eq_set_getD _ _ _ Chanend.blank]

theorem State.updSync_eq (s : State) (n : Nat) (f : Sync → Sync) : s.updSync n f = s.withSyncN n (f (s.sync n)) := by
  simp [State.updSync, State.withSyncN, State.sync, modify_eq_set_getD _ _ _ Sync.blank]

theorem State.updLock_eq (s : State) (n : Nat) (f : Lock → Lock) : s.updLock n f = s.withLockN n (f (s.lock n)) := by
  simp [State.updLock, State.withLockN, State.lock, modify_eq_set_getD _ _ _ Lock.blank]

theorem State.updClk_eq (s : State) (n : Nat) (f : ClockBlock → ClockBlock) :
    s.updClk n f = s.withClkN n (f (s.clk n)) := by
  simp [State.updClk, State.withClkN, State.clk, modify_eq_set_getD _ _ _ (ClockBlock.blank s.plat.refClkId)]

theorem State.updEs_eq (s : State) (q : ResRef) (f : EventState → EventState) :
    s.updEs q f = s.withEsN q (f (s.es q)) := by
  cases q <;> simp [State.updEs, State.withEsN, State.es, State.updTimer_eq, State.updChan_eq, State.updPort_eq]

theorem State.setX_eq (s : State) (d : Reg) (v : Word) : s.setX d v = s.withThr s.tid (s.cur.put d v) := by
  simp [State.setX, State.updCur, State.updThr_eq, State.cur]

theorem State.pause_eq (s : State) : s.pause = s.withThr s.tid s.waitingCur := by
  simp [State.pause, State.await, State.updCur, State.updThr_eq, State.cur, State.waitingCur]

/-- Replacing a thread by itself changes nothing. -/
@[simp] theorem State.withThr_self (s : State) (n : Nat) : s.withThr n (s.thr n) = s := by
  unfold State.withThr State.thr
  rw [set_getD_self]

@[simp] theorem State.withThr_cur (s : State) : s.withThr s.tid s.cur = s := s.withThr_self s.tid

/-! ## Reads after a replacement -/

theorem State.thr_withThr (s : State) (n k : Nat) (th : Thread) :
    (s.withThr n th).thr k = if n = k ∧ k < s.threads.length then th else s.thr k := getD_set _ _ _ _ _

theorem State.port_withPortN (s : State) (n k : Nat) (p : Port) :
    (s.withPortN n p).port k = if n = k ∧ k < s.ports.length then p else s.port k := getD_set _ _ _ _ _

theorem State.timer_withTimerN (s : State) (n k : Nat) (x : Timer) :
    (s.withTimerN n x).timer k = if n = k ∧ k < s.timers.length then x else s.timer k := getD_set _ _ _ _ _

theorem State.chan_withChanN (s : State) (n k : Nat) (c : Chanend) :
    (s.withChanN n c).chan k = if n = k ∧ k < s.chans.length then c else s.chan k := getD_set _ _ _ _ _

theorem State.sync_withSyncN (s : State) (n k : Nat) (y : Sync) :
    (s.withSyncN n y).sync k = if n = k ∧ k < s.syncs.length then y else s.sync k := getD_set _ _ _ _ _

theorem State.lock_withLockN (s : State) (n k : Nat) (l : Lock) :
    (s.withLockN n l).lock k = if n = k ∧ k < s.locks.length then l else s.lock k := getD_set _ _ _ _ _

theorem State.clk_withClkN (s : State) (n k : Nat) (c : ClockBlock) :
    (s.withClkN n c).clk k = if n = k ∧ k < s.clks.length then c else s.clk k := getD_set _ _ _ _ _

theorem State.thr_of_length_le (s : State) {n : Nat} (h : s.threads.length ≤ n) : s.thr n = Thread.blank := by
  simp [State.thr, List.getD_eq_getElem?_getD, List.getElem?_eq_none h]

/-- A thread in use is one the XCore has. -/
theorem State.lt_of_inuse (s : State) {n : Nat} (h : (s.thr n).inuse = true) : n < s.threads.length := by
  by_contra hn
  rw [s.thr_of_length_le (by omega)] at h
  simp [Thread.blank] at h

/-! ## Registers of a thread -/

@[simp] theorem Thread.get_put_same (t : Thread) (i : Reg) (v : Word) : (t.put i v).get i = v := by
  show (t.regs.set i v)[i.val] = v
  simp

theorem Thread.get_put (t : Thread) (i k : Reg) (v : Word) : (t.put i v).get k = if k = i then v else t.get k := by
  by_cases h : k = i
  · subst h; simp
  · have : i.val ≠ k.val := fun h' => h (Fin.ext h'.symm)
    rw [if_neg h]
    show (t.regs.set i v)[k.val] = t.regs[k.val]
    simp [this]

theorem State.x_setX (s : State) (h : s.tid < s.threads.length) (d k : Reg) (v : Word) :
    (s.setX d v).x k = if k = d then v else s.x k := by
  simp only [State.setX_eq, State.x, State.cur]
  rw [show (s.withThr s.tid ((s.thr s.tid).put d v)).tid = s.tid from rfl, State.thr_withThr]
  simp [h, Thread.get_put]

/-! ## Frames -/

/-- A replaced executing thread, with no old parcel added, is the frame `becomes`. -/
theorem State.becomes_of_withThr (s : State) (th : Thread) : s.becomes (s.withThr s.tid th) th :=
  ⟨rfl, fun _ h => h⟩

theorem State.becomes_setX (s : State) (d : Reg) (v : Word) : s.becomes (s.setX d v) (s.cur.put d v) := by
  rw [State.setX_eq]; exact s.becomes_of_withThr _

theorem State.becomes_self (s : State) : s.becomes s s.cur := by
  simpa using s.becomes_of_withThr s.cur

theorem State.becomes_jump (s : State) (v : Word) : s.becomes (s.jump v) { s.cur with pc := v } := by
  refine ⟨?_, ?_⟩
  · simp [State.jump, State.jumpThr, State.updThr_eq, State.withThr, State.cur]
  · intro e he
    simp only [State.jump, State.jumpThr, List.mem_filter] at he
    exact he.1

/-- Two changes of the executing thread in a row are one. -/
theorem State.becomes_trans {s t u : State} {a b : Thread} (h : s.becomes t a) (h' : t.becomes u b) : s.becomes u b := by
  obtain ⟨h1, h2⟩ := h
  obtain ⟨h3, h4⟩ := h'
  have ht : t.tid = s.tid := by rw [h1]
  refine ⟨?_, fun e he => h2 e (h4 e he)⟩
  rw [h3, ht]
  conv_lhs => rw [h1]
  simp

theorem State.cur_withThr (s : State) (th : Thread) (h : s.tid < s.threads.length) : (s.withThr s.tid th).cur = th := by
  have := s.thr_withThr s.tid s.tid th
  simp only [h, and_self, if_true] at this
  exact this

/-- A jump after a change of the executing thread. -/
theorem State.becomes_jump_withThr (s : State) (th : Thread) (v : Word) :
    s.becomes ((s.withThr s.tid th).jump v) { th with pc := v } := by
  by_cases h : s.tid < s.threads.length
  · have := State.becomes_trans (s.becomes_of_withThr th) ((s.withThr s.tid th).becomes_jump v)
    rwa [s.cur_withThr th h] at this
  · refine ⟨?_, ?_⟩
    · have h1 : ∀ x : Thread, s.threads.set s.tid x = s.threads := fun x =>
        List.set_eq_of_length_le (by omega)
      simp [State.jump, State.jumpThr, State.updThr_eq, State.withThr, h1]
    · intro e he
      simp only [State.jump, State.jumpThr, List.mem_filter] at he
      exact he.1

/-- The exception entry is the frame `trapped` (R660). -/
theorem State.trapped_raise (s : State) (e : ExcType) (info : Word) :
    s.trapped (s.raise e info) (ExcType.code e) info := by
  have := s.becomes_jump_withThr (s.cur.saveForException s.pcThis (ExcType.code e) info) s.cur.kep
  simpa [State.trapped, State.raise, State.takeException, State.updCur, State.updThr_eq, State.cur,
    Thread.saveForException, SR.exceptionEntry] using this

/-- What an instruction that raises answers. -/
theorem raised_spec (s : State) (e : ExcType) (info : Word) :
    ∃ t, raised e info s = .next t ∧ s.trapped t (ExcType.code e) info := ⟨_, rfl, s.trapped_raise e info⟩

/-- What writing a register answers. -/
theorem writeReg_spec (s : State) (d : Reg) (v : Word) :
    ∃ t, writeReg d v s = .next t ∧ s.becomes t (s.cur.put d v) := ⟨_, rfl, s.becomes_setX d v⟩

/-- A store is the frame `stores`. -/
theorem State.stores_memWrite (s : State) (h : Memory.wf s.mem = true) (a : Word) (n : Nat) (v : Word) :
    s.stores (s.memWrite a n v) s.cur a n v := by
  refine ⟨?_, fun b => Memory.read_writeN h a.toNat n v.toNat b⟩
  have : s.threads.set s.tid s.cur = s.threads := set_getD_self _ _ _
  rw [this]; rfl

end Sys2Proof.Machine
end

