-- ==== Sys2Proof/Laws/Ops.lean ====
section
/-! SUPPORT. What each shared operation can answer, said once: loads and stores, the common checks of R354, pauses, and
the operations that the families share. -/
namespace Sys2Proof.Machine

/-! ## Loads and stores (R97) -/

theorem readable_iff (pl : Platform) (a : Word) (n : Nat) :
    readable pl a n = true ↔ a.toNat % n = 0 ∧ memValid pl a.toNat = true := by
  simp [readable]

theorem writable_iff (pl : Platform) (a : Word) (n : Nat) :
    writable pl a n = true ↔ a.toNat % n = 0 ∧ memValid pl a.toNat = true ∧ inRom pl a.toNat = false := by
  simp [writable, readable, and_assoc]

theorem readable_one (pl : Platform) (a : Word) : readable pl a 1 = memValid pl a.toNat := by
  simp [readable, Nat.mod_one]

theorem loadReg_legal (d : Reg) (a : Word) (n : Nat) (ext : Word → Word) (s : State)
    (h : readable s.plat a n = true) : ∃ t, loadReg d a n ext s = .next t ∧ s.becomes t (s.cur.put d (ext (s.memRead a n))) := by
  rw [loadReg, if_pos h]; exact writeReg_spec s d _

theorem loadReg_illegal (d : Reg) (a : Word) (n : Nat) (ext : Word → Word) (s : State)
    (h : readable s.plat a n = false) : ∃ t, loadReg d a n ext s = .next t ∧ s.trapped t 5#32 a := by
  rw [loadReg, h]; exact raised_spec s .loadStore a

theorem storeVal_legal (a : Word) (n : Nat) (v : Word) (s : State) (hm : Memory.wf s.mem = true)
    (h : writable s.plat a n = true) : ∃ t, storeVal a n v s = .next t ∧ s.stores t s.cur a n v := by
  rw [storeVal, if_pos h]; exact ⟨_, rfl, s.stores_memWrite hm a n v⟩

theorem storeVal_illegal (a : Word) (n : Nat) (v : Word) (s : State)
    (h : writable s.plat a n = false) : ∃ t, storeVal a n v s = .next t ∧ s.trapped t 5#32 a := by
  rw [storeVal, h]; exact raised_spec s .loadStore a

theorem loadThen_legal (a : Word) (k : Word → State → Result) (s : State) (h : readable s.plat a 4 = true) :
    loadThen a k s = k (s.memRead a 4) s := by
  rw [loadThen, if_pos h]

theorem loadThen_illegal (a : Word) (k : Word → State → Result) (s : State) (h : readable s.plat a 4 = false) :
    ∃ t, loadThen a k s = .next t ∧ s.trapped t 5#32 a := by
  rw [loadThen, h]; exact raised_spec s .loadStore a

/-- A word read is its four bytes, the lowest address in the low bits (R94). -/
theorem State.memRead_four (s : State) (a : Word) :
    s.memRead a 4 = s.byte (a.toNat + 3) ++ s.byte (a.toNat + 2) ++ s.byte (a.toNat + 1) ++ s.byte a.toNat := by
  apply BitVec.eq_of_toNat_eq
  simp only [State.memRead, word, Memory.readN, State.byte, BitVec.toNat_ofNat, BitVec.toNat_append]
  have h0 := (Memory.read s.mem a.toNat).isLt
  have h1 := (Memory.read s.mem (a.toNat + 1)).isLt
  have h2 := (Memory.read s.mem (a.toNat + 2)).isLt
  have h3 := (Memory.read s.mem (a.toNat + 3)).isLt
  simp only [Nat.add_assoc, Nat.reduceAdd] at *
  rw [← Nat.shiftLeft_add_eq_or_of_lt h2, ← Nat.shiftLeft_add_eq_or_of_lt h1, ← Nat.shiftLeft_add_eq_or_of_lt h0]
  simp only [Nat.shiftLeft_eq]
  omega

/-- A halfword read is its two bytes (R94). -/
theorem State.memRead_two (s : State) (a : Word) :
    s.memRead a 2 = (s.byte (a.toNat + 1) ++ s.byte a.toNat).setWidth 32 := by
  apply BitVec.eq_of_toNat_eq
  simp only [State.memRead, word, Memory.readN, State.byte, BitVec.toNat_ofNat, BitVec.toNat_append, BitVec.toNat_setWidth]
  have h0 := (Memory.read s.mem a.toNat).isLt
  have h1 := (Memory.read s.mem (a.toNat + 1)).isLt
  rw [← Nat.shiftLeft_add_eq_or_of_lt h0]
  simp only [Nat.shiftLeft_eq]
  omega

/-- A byte read (R94). -/
theorem State.memRead_one (s : State) (a : Word) : s.memRead a 1 = (s.byte a.toNat).setWidth 32 := by
  apply BitVec.eq_of_toNat_eq
  simp only [State.memRead, word, Memory.readN, State.byte, BitVec.toNat_ofNat, BitVec.toNat_setWidth]
  omega

/-! ## The common checks (R354) -/

theorem withPort_live {s : State} {r : Word} {n : Nat} (h : s.live r = some (.port n)) (k : Nat → State → Result) :
    withPort r k s = k n s := by simp [withPort, h]
theorem withChan_live {s : State} {r : Word} {n : Nat} (h : s.live r = some (.chan n)) (k : Nat → State → Result) :
    withChan r k s = k n s := by simp [withChan, h]
theorem withSync_live {s : State} {r : Word} {n : Nat} (h : s.live r = some (.sync n)) (k : Nat → State → Result) :
    withSync r k s = k n s := by simp [withSync, h]
theorem withThread_live {s : State} {r : Word} {n : Nat} (h : s.live r = some (.thread n)) (k : Nat → State → Result) :
    withThread r k s = k n s := by simp [withThread, h]
theorem withEventRes_live {s : State} {r : Word} {q : ResRef} (h : s.live r = some q.res)
    (k : ResRef → State → Result) : withEventRes r k s = k q s := by
  cases q <;> simp [withEventRes, h, ResRef.res]

theorem withPort_not {s : State} {r : Word} (h : ∀ n, s.live r ≠ some (.port n)) (k : Nat → State → Result) :
    withPort r k s = badResource r s := by
  unfold withPort; split <;> simp_all
theorem withChan_not {s : State} {r : Word} (h : ∀ n, s.live r ≠ some (.chan n)) (k : Nat → State → Result) :
    withChan r k s = badResource r s := by
  unfold withChan; split <;> simp_all
theorem withSync_not {s : State} {r : Word} (h : ∀ n, s.live r ≠ some (.sync n)) (k : Nat → State → Result) :
    withSync r k s = badResource r s := by
  unfold withSync; split <;> simp_all
theorem withThread_not {s : State} {r : Word} (h : ∀ n, s.live r ≠ some (.thread n)) (k : Nat → State → Result) :
    withThread r k s = badResource r s := by
  unfold withThread; split <;> simp_all
theorem withEventRes_not {s : State} {r : Word} (h : ∀ q : ResRef, s.live r ≠ some q.res)
    (k : ResRef → State → Result) : withEventRes r k s = badResource r s := by
  unfold withEventRes
  have h1 : ∀ n, s.live r ≠ some (.timer n) := fun n => h (.timer n)
  have h2 : ∀ n, s.live r ≠ some (.chan n) := fun n => h (.chan n)
  have h3 : ∀ n, s.live r ≠ some (.port n) := fun n => h (.port n)
  split <;> simp_all

/-- What an instruction on a bad identifier answers (R673). -/
theorem badResource_spec (s : State) (r : Word) : ∃ t, badResource r s = .next t ∧ s.trapped t 4#32 r :=
  raised_spec s .illegalResource r

/-- A live identifier is one the tables know, of a resource in use. -/
theorem State.live_iff {s : State} {r : Word} {x : Res} :
    s.live r = some x ↔ s.lookup r = some x ∧ s.inuse x = true := by
  simp [State.live, Option.filter_eq_some_iff]

/-! ## Pausing (R62) -/

theorem paused_eq (s : State) : paused s = .next (s.withThr s.tid s.waitingCur) := by
  rw [paused, State.pause_eq]

theorem pauseOnPort_eq (n : Nat) (s : State) : pauseOnPort n s =
    .next ((s.withThr s.tid s.waitingCur).withPortN n { s.port n with waiter := some s.tid }) := by
  rw [pauseOnPort, State.pause_eq, State.updPort_eq]; rfl
theorem pauseOnTimer_eq (n : Nat) (s : State) : pauseOnTimer n s =
    .next ((s.withThr s.tid s.waitingCur).withTimerN n { s.timer n with waiter := some s.tid }) := by
  rw [pauseOnTimer, State.pause_eq, State.updTimer_eq]; rfl
theorem pauseOnChanIn_eq (n : Nat) (s : State) : pauseOnChanIn n s =
    .next ((s.withThr s.tid s.waitingCur).withChanN n { s.chan n with waiterIn := some s.tid }) := by
  rw [pauseOnChanIn, State.pause_eq, State.updChan_eq]; rfl
theorem pauseOnChanOut_eq (n : Nat) (s : State) : pauseOnChanOut n s =
    .next ((s.withThr s.tid s.waitingCur).withChanN n { s.chan n with waiterOut := some s.tid }) := by
  rw [pauseOnChanOut, State.pause_eq, State.updChan_eq]; rfl

/-! ## Two destinations (R620) -/

theorem writePair_ne {d e : Reg} (h : d ≠ e) (v w : Word) (s : State) :
    ∃ t, writePair d e v w s = .next t ∧ s.becomes t ((s.cur.put e w).put d v) := by
  refine ⟨_, by rw [writePair, if_neg h], ?_⟩
  have h1 := s.becomes_setX e w
  have h2 := (s.setX e w).becomes_setX d v
  by_cases hl : s.tid < s.threads.length
  · have h3 : (s.setX e w).cur = s.cur.put e w := by rw [State.setX_eq]; exact s.cur_withThr _ hl
    rw [h3] at h2
    exact State.becomes_trans h1 h2
  · have hs : ∀ (x : Thread), s.threads.set s.tid x = s.threads := fun x => List.set_eq_of_length_le (by omega)
    refine ⟨?_, fun _ he => he⟩
    simp [State.setX_eq, State.withThr, hs]

/-! ## Sets of thread numbers -/

theorem mem_insertSet (n : Nat) (l : List Nat) (k : Nat) : k ∈ insertSet n l ↔ k = n ∨ k ∈ l := by
  induction l with
  | nil => simp [insertSet]
  | cons a l ih =>
    unfold insertSet
    split
    · simp
    · split
      · subst_vars; simp
      · simp [ih]; tauto

theorem mem_minusSet (a b : List Nat) (k : Nat) : k ∈ minusSet a b ↔ k ∈ a ∧ k ∉ b := by
  simp [minusSet]

end Sys2Proof.Machine
end

