-- ==== Sys2Proof/Laws/Channels.lean ====
section
/-! SUPPORT. What the shared operations of the channel instructions and of token delivery can do, said once. -/
namespace Sys2Proof.Machine

/-- Output with room (R407). -/
theorem sendTokens_room {n : Nat} {ts : List Token} {s : State}
    (h : (s.chan n).flight.length + ts.length ≤ s.plat.flightCap) :
    sendTokens n ts s = .next (s.withChanN n ((s.chan n).send ts)) := by
  rw [sendTokens, if_pos h, State.updChan_eq]

/-- Output without room pauses (R407). -/
theorem sendTokens_full {n : Nat} {ts : List Token} {s : State}
    (h : s.plat.flightCap < (s.chan n).flight.length + ts.length) :
    sendTokens n ts s =
      .next ((s.withThr s.tid s.waitingCur).withChanN n { s.chan n with waiterOut := some s.tid }) := by
  rw [sendTokens, if_neg (by omega), pauseOnChanOut_eq]

theorem withOutChan_set {s : State} {r : Word} {n : Nat} (h : s.live r = some (.chan n))
    (hd : (s.chan n).destset = true) (k : Nat → State → Result) : withOutChan r k s = k n s := by
  rw [withOutChan, withChan_live h, withDest, if_pos hd]

theorem withOutChan_unset {s : State} {r : Word} {n : Nat} (h : s.live r = some (.chan n))
    (hd : (s.chan n).destset = false) (k : Nat → State → Result) :
    ∃ t, withOutChan r k s = .next t ∧ s.trapped t 1#32 r := by
  rw [withOutChan, withChan_live h, withDest, if_neg (by simp [hd])]; exact raised_spec s .linkError r

/-- No privileged token: no trap (R413). -/
theorem State.privTrapOf_none {s : State} {t : Token}
    (h : t.value.toNat < 192 ∨ s.cur.sr.ink = true ∨ 224 ≤ t.value.toNat ∨ t.control = false) :
    s.privTrapOf t = none := by
  rw [State.privTrapOf, if_neg]
  simp only [Bool.and_eq_true, decide_eq_true_eq, Bool.not_eq_true']
  rintro ⟨⟨⟨h1, h2⟩, h3⟩, h4⟩
  rcases h with h | h | h | h
  · omega
  · simp [h] at h4
  · omega
  · simp [h] at h1

/-- The trap of the value operand first (R680). -/
theorem outControl_value {s : State} {r : Word} {n : Nat} {t : Token} (h : s.live r = some (.chan n))
    (hv : s.valueTraps t = true) : ∃ u, outControl r t s = .next u ∧ s.trapped u 4#32 r := by
  rw [outControl, withChan_live h, if_pos hv]
  exact raised_spec s .illegalResource r

/-- An output of a control token with the destination not set (R411, R425). -/
theorem outControl_unset {s : State} {r : Word} {n : Nat} {t : Token} (h : s.live r = some (.chan n))
    (hv : s.valueTraps t = false) (hd : (s.chan n).destset = false) :
    ∃ u, outControl r t s = .next u ∧ s.trapped u 1#32 r := by
  rw [outControl, withChan_live h, if_neg (by simp [hv]), withDest, if_neg (by simp [hd])]
  exact raised_spec s .linkError r

/-- An output of a control token with the destination set: with either order of the checks, the trap of a hardware
token, the trap of a privileged one, or the output (R425). -/
theorem outControl_set {s : State} {r : Word} {n : Nat} {t : Token} (h : s.live r = some (.chan n))
    (hd : (s.chan n).destset = true) :
    outControl r t s = if t.isHardware then raised .linkError r s else unlessPrivileged r t (sendTokens n [t]) s := by
  rw [outControl, withChan_live h, withDest, if_pos hd]
  by_cases hv : s.valueTraps t = true
  · have hp : s.privTrapOf t = some .illegalResource := by
      simp only [State.valueTraps, Bool.and_eq_true, decide_eq_true_eq] at hv
      exact hv.2
    have hh : t.isHardware = false := by
      by_contra hh
      simp only [Token.isHardware, Bool.and_eq_true, decide_eq_true_eq, Bool.not_eq_false] at hh
      rw [State.privTrapOf_none (.inr (.inr (.inl hh.2)))] at hp
      cases hp
    rw [if_pos hv, if_neg (by simp [hh]), unlessPrivileged, hp]
    rfl
  · rw [if_neg hv]

theorem withHead_cons {s : State} {r : Word} {n : Nat} {t : Token} {rest : List Token}
    (h : s.live r = some (.chan n)) (hb : (s.chan n).inbuf = t :: rest) (k : Nat → Token → State → Result) :
    withHead r k s = k n t s := by
  rw [withHead, withChan_live h, hb]

theorem withHead_nil {s : State} {r : Word} {n : Nat} (h : s.live r = some (.chan n)) (hb : (s.chan n).inbuf = [])
    (k : Nat → Token → State → Result) : withHead r k s =
      .next ((s.withThr s.tid s.waitingCur).withChanN n { s.chan n with waiterIn := some s.tid }) := by
  rw [withHead, withChan_live h, hb, pauseOnChanIn_eq]

/-- Taking the head token (R427, R428). -/
theorem Chanend.takeOne_cons {c : Chanend} {t : Token} {rest : List Token} (h : c.inbuf = t :: rest) :
    c.takeOne = { c with inbuf := rest, inmsg := decide (t ≠ endToken) } := by
  simp only [Chanend.takeOne, h, List.tail_cons, List.head?_cons]
  congr 1
  simp [bne, beq_eq_decide]

/-- A token delivered: what the destination takes and the queue loses (R405). -/
theorem State.deliver_accept {s : State} {c n : Nat} {d : Word} {k : Token} {rest : List (Word × Token)} {e : Chanend}
    (hf : (s.chan c).flight = (d, k) :: rest) (hd : s.lookup d = some (.chan n))
    (ha : (s.chan n).accept s.plat (.chan c) k = some e) :
    s.deliver c = (s.updChan n fun _ => e).updChan c Chanend.dropHead := by
  simp only [State.deliver, hf, hd, ha]

/-- A token that is not accepted waits (R405). -/
theorem State.deliver_wait {s : State} {c n : Nat} {d : Word} {k : Token} {rest : List (Word × Token)}
    (hf : (s.chan c).flight = (d, k) :: rest) (hd : s.lookup d = some (.chan n))
    (ha : (s.chan n).accept s.plat (.chan c) k = none) : s.deliver c = s := by
  simp only [State.deliver, hf, hd, ha]

/-- What a channel end accepts keeps it in order (R66, R402, R405). -/
theorem Chanend.ok_accept {pl : Platform} {c e : Chanend} {o : Owner} {t : Token} (h : c.ok pl = true)
    (ht : t.sendable = true) (ha : c.accept pl o t = some e) : e.ok pl = true := by
  simp only [Chanend.ok, Bool.and_eq_true, decide_eq_true_eq] at h ⊢
  obtain ⟨⟨⟨h1, h2⟩, h3⟩, h4⟩ := h
  unfold Chanend.accept at ha
  split at ha
  · split at ha
    · cases ha; exact ⟨⟨⟨h1, h2⟩, h3⟩, h4⟩
    · rename_i hp
      split at ha
      · rename_i hl
        cases ha
        refine ⟨⟨⟨by simpa using hl, h2⟩, ?_⟩, h4⟩
        simp only [List.all_append, h3, Bool.true_and, List.all_cons, List.all_nil, Bool.and_true]
        simp only [Token.sendable] at ht
        simp [Token.deliverable, hp, ht]
      · cases ha
  · cases ha

end Sys2Proof.Machine
end

