-- ==== Sys2Proof/Laws/Encoding.lean ====
section
/-! SUPPORT. The table of the two-operand field (R136 of spec/30_encoding.md) and the field itself: what packing writes,
unpacking reads back, with every table that can be decoded. -/
namespace Sys2Proof

theorem defaultPairs_ok : pairsOk defaultPairs = true := by decide +kernel

@[simp] theorem defaultPlatform_pairs : Machine.defaultPlatform.pairs = defaultPairs := rfl

/-- What every entry of a table that can be decoded is. -/
theorem pairCode_ok {pairs : PairTable} {v : Nat} (h : pairsOk pairs = true) (hv : v < 9) :
    27 ≤ (pairCode pairs v).high ∧ (pairCode pairs v).high ≤ 31 ∧ (pairCode pairs v).ext ≤ 1 ∧
      pairCode pairs v ≠ ⟨31, 1⟩ := by
  have hl : v < pairs.toList.length := by simpa using hv
  simp only [pairsOk, Bool.and_eq_true, List.all_eq_true, decide_eq_true_eq, bne_iff_ne] at h
  have hm : pairCode pairs v ∈ pairs.toList := by
    rw [pairCode, List.getD_eq_getElem _ _ hl]
    exact List.getElem_mem hl
  obtain ⟨⟨⟨h1, h2⟩, h3⟩, h4⟩ := h.2 _ hm
  exact ⟨h1, h2, h3, h4⟩

/-- The index of an entry is its place. -/
theorem pairIndex_pairCode {pairs : PairTable} {v : Nat} (h : pairsOk pairs = true) (hv : v < 9) :
    pairIndex pairs (pairCode pairs v) = some v := by
  have hl : v < pairs.toList.length := by simpa using hv
  simp only [pairsOk, Bool.and_eq_true, decide_eq_true_eq] at h
  rw [pairIndex, pairCode, List.getD_eq_getElem _ _ hl, List.idxOf?_eq_some_iff]
  exact ⟨hl, by simp, fun j hj => by
    have hne : pairs.toList[j] ≠ pairs.toList[v] := fun e =>
      absurd ((List.Nodup.getElem_inj_iff h.1).mp e) (by omega)
    simpa using hne⟩

/-- An index that is found is one of the nine. -/
theorem pairIndex_lt {pairs : PairTable} {c : PairCode} {v : Nat} (h : pairIndex pairs c = some v) : v < 9 := by
  rw [pairIndex, List.idxOf?_eq_some_iff] at h
  obtain ⟨hl, -⟩ := h
  simpa using hl

/-- The operands of the two-operand field are registers r0..r11 or numbers 0..11, whatever the table. -/
theorem f2Operands_lt {pairs : PairTable} {w a b : Nat} (h : f2Operands pairs w = some (a, b)) : a < 12 ∧ b < 12 := by
  simp only [f2Operands, Option.map_eq_some_iff, Prod.mk.injEq, field] at h
  obtain ⟨v, hv, rfl, rfl⟩ := h
  have := pairIndex_lt hv
  omega

/-- What the two-operand field packs, a decoder reads back, under any opcode. -/
theorem f2Operands_packF2 {pairs : PairTable} {op bit4 a b : Nat} (h : pairsOk pairs = true) (h4 : bit4 < 2)
    (ha : a < 12) (hb : b < 12) : f2Operands pairs (packOp op (packF2 pairs bit4 a b)) = some (a, b) := by
  have hv : a / 4 * 3 + b / 4 < 9 := by omega
  have hi := pairIndex_pairCode h hv
  obtain ⟨-, h31, h1, -⟩ := pairCode_ok h hv
  generalize hc : pairCode pairs (a / 4 * 3 + b / 4) = c at hi h31 h1
  have hcode : (⟨field (packOp op (packF2 pairs bit4 a b)) 6 5, field (packOp op (packF2 pairs bit4 a b)) 5 1⟩ : PairCode)
      = c := by
    cases c
    simp only [packOp, packF2, hc, field, PairCode.mk.injEq] at *
    omega
  rw [f2Operands, hcode, hi]
  simp only [packOp, packF2, hc, field, Option.map_some, Option.some.injEq, Prod.mk.injEq]
  omega

end Sys2Proof
end

