-- ==== Sys2Proof/Machine/Link.lean ====
section
/-! DEFINITION. The two encodings of tokens on XMOS Links (R5, R402 of spec/44_communication_locks.md). No instruction sees
them: between XCores a token is a pair of kind and value, so that no step uses these definitions (log 51). -/
namespace Sys2Proof.Machine

/-! ## The serial link -/

/-- One direction of a serial link (R402): a transition on one wire is a one bit, on the other a zero bit. -/
structure SerialWires where
  one : Bool
  zero : Bool
deriving DecidableEq, Repr

/-- Both wires in the rest state (R402). -/
def SerialWires.rest : SerialWires := ⟨false, false⟩

/-- A bit is sent (R402). -/
def SerialWires.send (w : SerialWires) (b : Bool) : SerialWires :=
  if b then { w with one := !w.one } else { w with zero := !w.zero }

/-- The eight bits of a token value. R402 does not say which comes first: it is an argument (log 51). -/
def valueBits (highFirst : Bool) (v : Byte) : List Bool :=
  let low := (List.range 8).map v.getLsbD
  if highFirst then low.reverse else low

/-- The bits of a token on a serial link (R402): its kind, its value, and the bit that returns the wire that is not at
rest. -/
def serialBits (highFirst : Bool) (k : Token) : List Bool :=
  let bits := k.control :: valueBits highFirst k.value
  bits ++ [(bits.foldl SerialWires.send .rest).one]

/-- The value that bits give, in the order of `valueBits`. -/
def bitsValue (highFirst : Bool) (bits : List Bool) : Byte :=
  BitVec.ofNat 8 ((if highFirst then bits else bits.reverse).foldl (fun n b => 2 * n + b.toNat) 0)

/-- The token that bits on a serial link stand for (R402); none where the last bit leaves a wire not at rest. -/
def serialToken (highFirst : Bool) : List Bool → Option Token
  | [] => none
  | c :: bits =>
    let k : Token := ⟨c, bitsValue highFirst (bits.take 8)⟩
    if serialBits highFirst k = c :: bits then some k else none

/-! ## The fast link -/

/-- A symbol of a fast link (R402): two bits of a value, or the escape e. -/
inductive FastSymbol where
  | pair (v : BitVec 2)
  | escape
deriving DecidableEq, Repr

/-- The 1-of-5 code of a symbol (R402). -/
def FastSymbol.code : FastSymbol → BitVec 5
  | .pair v => 1#5 <<< v.toNat
  | .escape => 0b10000#5

/-- The symbol of a code; none for what is no 1-of-5 code. -/
def FastSymbol.ofCode (c : BitVec 5) : Option FastSymbol :=
  if c = 0b00001#5 then some (.pair 0#2)
  else if c = 0b00010#5 then some (.pair 1#2)
  else if c = 0b00100#5 then some (.pair 2#2)
  else if c = 0b01000#5 then some (.pair 3#2)
  else if c = 0b10000#5 then some .escape
  else none

/-- What four symbols are (R402): a token, or nothing sent (NOP, return to zero). -/
inductive LinkItem where
  | token (k : Token)
  | nop
deriving DecidableEq, Repr

/-- The number that pairs of bits give. R402 does not say which pair is the highest: it is an argument (log 51). -/
def pairsValue (highFirst : Bool) (vs : List (BitVec 2)) : Nat :=
  (if highFirst then vs else vs.reverse).foldl (fun n v => 4 * n + v.toNat) 0

/-- The m pairs of bits of a number, in the order of `pairsValue`. -/
def pairsOf (highFirst : Bool) (m n : Nat) : List (BitVec 2) :=
  let low := (List.range m).map fun i => BitVec.ofNat 2 (n / 4 ^ i)
  if highFirst then low.reverse else low

/-- A control token. -/
def controlToken (n : Nat) : Token := ⟨true, BitVec.ofNat 8 n⟩

/-- What the four symbols of a fast link stand for, in the order of R402's list. -/
def fastItem (highFirst : Bool) : List FastSymbol → Option LinkItem
  | [.pair a, .pair b, .pair c, .pair d] => some (.token ⟨false, BitVec.ofNat 8 (pairsValue highFirst [a, b, c, d])⟩)
  | [.escape, .pair a, .pair b, .pair c] =>
    if a = 3#2 && b = 3#2 then some .nop else some (.token (controlToken (192 + pairsValue highFirst [a, b, c])))
  | [.pair a, .escape, .pair b, .pair c] => some (.token (controlToken (128 + pairsValue highFirst [a, b, c])))
  | [.pair a, .pair b, .escape, .pair c] => some (.token (controlToken (64 + pairsValue highFirst [a, b, c])))
  | [.pair a, .pair b, .pair c, .escape] => some (.token (controlToken (pairsValue highFirst [a, b, c])))
  | [.escape, .escape, .pair _, .pair _] => some (.token endToken)
  | [.pair _, .pair _, .escape, .escape] => some (.token pauseToken)
  | [.escape, .pair _, .pair _, .escape] => some .nop
  | [.escape, .pair a, .escape, .pair b] => if a = b then some (.token (controlToken (224 + a.toNat))) else none
  | _ => none

/-- The symbols of a control token by the place of the escape (R402); none where they are the code of a NOP. -/
def controlSymbols (n : Nat) : List (BitVec 2) → Option (List FastSymbol)
  | [a, b, c] =>
    if n < 64 then some [.pair a, .pair b, .pair c, .escape]
    else if n < 128 then some [.pair a, .pair b, .escape, .pair c]
    else if n < 192 then some [.pair a, .escape, .pair b, .pair c]
    else if a = 3#2 && b = 3#2 then none
    else some [.escape, .pair a, .pair b, .pair c]
  | _ => none

/-- The four symbols that send a token on a fast link (R402): END, PAUSE and the tokens that control the link by their own
codes. The pairs a and b stand where R402 leaves them open. -/
def fastSymbols (highFirst : Bool) (a b : BitVec 2) (k : Token) : Option (List FastSymbol) :=
  let n := k.value.toNat
  if k.control = false then some ((pairsOf highFirst 4 n).map .pair)
  else if k = endToken then some [.escape, .escape, .pair a, .pair b]
  else if k = pauseToken then some [.pair a, .pair b, .escape, .escape]
  else if 224 ≤ n && n ≤ 227 then
    some [.escape, .pair (BitVec.ofNat 2 n), .escape, .pair (BitVec.ofNat 2 n)]
  else controlSymbols n (pairsOf highFirst 3 (n % 64))

/-! ## Credit -/

/-- The credit a sender holds after it receives a token (R402): CREDIT8 and CREDIT64 issue 8 and 64 tokens, CRESET takes
all issued credit back. That no other token changes it, LRESET among them, is the model's choice (log 51). -/
def creditAfter (credit : Nat) (k : Token) : Nat :=
  if k = controlToken 224 then credit + 8
  else if k = controlToken 225 then credit + 64
  else if k = controlToken 227 then 0
  else credit

end Sys2Proof.Machine
end

