-- ==== Sys2Proof/Laws/Link.lean ====
section
/-! SUPPORT. Encoding and decoding agree on both kinds of link, and a serial link is at rest between tokens (R402). -/
namespace Sys2Proof.Machine

/-- A property of all tokens is one of two kinds and 256 values. -/
theorem Token.all_of {p : Token → Prop} (h : ∀ c : Bool, ∀ n : Fin 256, p ⟨c, BitVec.ofNat 8 n.val⟩) (k : Token) : p k := by
  have := h k.control ⟨k.value.toNat, k.value.isLt⟩
  simpa using this

/-- What is sent on a serial link is what is received (R402). -/
theorem serialToken_serialBits (highFirst : Bool) (k : Token) :
    serialToken highFirst (serialBits highFirst k) = some k := by
  revert highFirst
  refine Token.all_of (p := fun k => ∀ h, serialToken h (serialBits h k) = some k) ?_ k
  decide +kernel

/-- After a token both wires of a serial link are at rest (R402). -/
theorem serialBits_rest (highFirst : Bool) (k : Token) :
    (serialBits highFirst k).foldl SerialWires.send .rest = .rest := by
  revert highFirst
  refine Token.all_of (p := fun k => ∀ h, (serialBits h k).foldl SerialWires.send .rest = .rest) ?_ k
  decide +kernel

/-- A symbol is read back from its code (R402). -/
theorem FastSymbol.ofCode_code (y : FastSymbol) : FastSymbol.ofCode y.code = some y := by
  cases y with
  | escape => rfl
  | pair v =>
    have h : ∀ n : Fin 4, FastSymbol.ofCode (FastSymbol.pair (BitVec.ofNat 2 n.val)).code =
        some (.pair (BitVec.ofNat 2 n.val)) := by decide +kernel
    simpa using h ⟨v.toNat, v.isLt⟩

/-- What is sent on a fast link is what is received (R402). -/
theorem fastItem_fastSymbols {highFirst : Bool} {a b : BitVec 2} {k : Token} {l : List FastSymbol}
    (h : fastSymbols highFirst a b k = some l) : fastItem highFirst l = some (.token k) := by
  have key : ∀ k : Token, k ≠ endToken → k ≠ pauseToken → ∀ h : Bool, ∀ l, fastSymbols h 0#2 0#2 k = some l →
      fastItem h l = some (.token k) := by
    have hb : ∀ c : Bool, ∀ n : Fin 256, ∀ h : Bool, (⟨c, BitVec.ofNat 8 n.val⟩ : Token) = endToken ∨
        (⟨c, BitVec.ofNat 8 n.val⟩ : Token) = pauseToken ∨
        (fastSymbols h 0#2 0#2 ⟨c, BitVec.ofNat 8 n.val⟩ = none ∨ (fastSymbols h 0#2 0#2 ⟨c, BitVec.ofNat 8 n.val⟩).bind
          (fastItem h) = some (.token ⟨c, BitVec.ofNat 8 n.val⟩)) := by decide +kernel
    intro k h1 h2 h l hl
    have := Token.all_of (p := fun k => ∀ h : Bool, k = endToken ∨ k = pauseToken ∨ (fastSymbols h 0#2 0#2 k = none ∨
      (fastSymbols h 0#2 0#2 k).bind (fastItem h) = some (.token k))) hb k h
    simpa [h1, h2, hl] using this
  by_cases h1 : k = endToken
  · subst h1
    simp only [fastSymbols, endToken] at h
    simp at h
    subst h; rfl
  · by_cases h2 : k = pauseToken
    · subst h2
      simp only [fastSymbols, endToken, pauseToken] at h
      simp at h
      subst h; rfl
    · refine key k h1 h2 highFirst l ?_
      simpa only [fastSymbols, h1, h2, if_false] using h

end Sys2Proof.Machine
end

