-- ==== Sys2Proof/Laws/Operands.lean ====
section
/-! SUPPORT. Masks, extensions and the low bits of a word, bit by bit and as numbers; the status register as a word. -/
namespace Sys2Proof.Machine

theorem maskWord_getLsbD (n k : Nat) : (maskWord n).getLsbD k = decide (k < n ∧ k < 32) := by
  simp only [maskWord, word, BitVec.getLsbD_ofNat, Nat.testBit_two_pow_sub_one]
  by_cases h : k < 32 <;> simp [h]

theorem zeroExtend_getLsbD (w : Word) (n k : Nat) (hk : k < 32) :
    (zeroExtend w n).getLsbD k = (w.getLsbD k && decide (n = 0 ∨ k < n)) := by
  unfold zeroExtend
  split
  · rename_i h
    have : n = 0 ∨ k < n := by simp at h; omega
    simp [this]
  · rename_i h
    have : n ≠ 0 := by simp at h; omega
    simp only [BitVec.getLsbD_and, maskWord_getLsbD, hk, this, and_true, false_or]

theorem signExtend_getLsbD (w : Word) (n k : Nat) (hk : k < 32) :
    (signExtend w n).getLsbD k = if n = 0 ∨ k < n then w.getLsbD k else w.getLsbD (n - 1) := by
  unfold signExtend
  split
  · rename_i h
    have : n = 0 ∨ k < n := by simp at h; omega
    simp [this]
  · rename_i h
    have h0 : n ≠ 0 := by simp at h; omega
    by_cases hb : w.getLsbD (n - 1) = true <;> by_cases hkn : k < n <;>
      simp only [hb, hkn, h0, hk, maskWord_getLsbD, BitVec.getLsbD_or, BitVec.getLsbD_not, BitVec.getLsbD_and, if_true,
        if_false, and_true, or_true, or_false, decide_true, decide_false, Bool.and_true, Bool.and_false,
        Bool.not_true, Bool.not_false, Bool.or_false, Bool.or_true, Bool.false_eq_true]

theorem lowBits_getLsbD (w : Word) (n k : Nat) : (lowBits w n).getLsbD k = (w.getLsbD k && decide (k < n)) := by
  by_cases hk : k < 32
  · simp only [lowBits, BitVec.getLsbD_and, maskWord_getLsbD, hk, and_true]
  · have : w.getLsbD k = false := BitVec.getLsbD_of_ge _ _ (by omega)
    simp [lowBits, this]

theorem lowBits_toNat (w : Word) (n : Nat) : (lowBits w n).toNat = w.toNat % 2 ^ n := by
  apply Nat.eq_of_testBit_eq
  intro k
  have := lowBits_getLsbD w n k
  simp only [BitVec.getLsbD] at this
  rw [this, Nat.testBit_mod_two_pow, Bool.and_comm]

theorem lowBits_eq (w : Word) (n : Nat) : lowBits w n = BitVec.ofNat 32 (w.toNat % 2 ^ n) := by
  apply BitVec.eq_of_toNat_eq
  rw [lowBits_toNat, BitVec.toNat_ofNat]
  exact (Nat.mod_eq_of_lt (lt_of_le_of_lt (Nat.mod_le _ _) w.isLt)).symm

/-- The status register's fields have their places (R35). -/
theorem SR.toWord_toNat (f : SR) : f.toWord.toNat = f.eeble.toNat + 2 * f.ieble.toNat + 4 * f.inenb.toNat +
    8 * f.inint.toNat + 16 * f.ink.toNat + 32 * f.sink.toNat + 64 * f.waiting.toNat + 128 * f.fast.toNat := by
  obtain ⟨a, b, c, d, e, g, h, i⟩ := f
  cases a <;> cases b <;> cases c <;> cases d <;> cases e <;> cases g <;> cases h <;> cases i <;> rfl

@[simp] theorem SR.ofWord_toWord (f : SR) : SR.ofWord f.toWord = f := by
  obtain ⟨a, b, c, d, e, g, h, i⟩ := f
  cases a <;> cases b <;> cases c <;> cases d <;> cases e <;> cases g <;> cases h <;> cases i <;> rfl

theorem bitAt_getLsbD : ∀ (b : Bool) (i : Fin 8) (k : Fin 32),
    (bitAt b i.val).getLsbD k.val = (b && decide (k.val = i.val)) := by decide +kernel

/-- Reading the status register keeps the implemented bits of what was written (R35). -/
theorem SR.toWord_ofWord (w : Word) : (SR.ofWord w).toWord = w &&& 0xFF#32 := by
  apply BitVec.eq_of_getLsbD_eq
  intro k hk
  have hb : ∀ (b : Bool) (i : Nat), i < 8 → (bitAt b i).getLsbD k = (b && decide (k = i)) :=
    fun b i hi => bitAt_getLsbD b ⟨i, hi⟩ ⟨k, hk⟩
  have hm : (0xFF#32).getLsbD k = decide (k < 8) := by
    revert k; decide +kernel
  simp only [SR.toWord, SR.ofWord, BitVec.getLsbD_or, BitVec.getLsbD_and, hm, hb _ 0 (by decide), hb _ 1 (by decide),
    hb _ 2 (by decide), hb _ 3 (by decide), hb _ 4 (by decide), hb _ 5 (by decide), hb _ 6 (by decide),
    hb _ 7 (by decide)]
  by_cases h : k < 8
  · interval_cases k <;> simp
  · simp [h, show k ≠ 0 by omega, show k ≠ 1 by omega, show k ≠ 2 by omega, show k ≠ 3 by omega,
      show k ≠ 4 by omega, show k ≠ 5 by omega, show k ≠ 6 by omega, show k ≠ 7 by omega]

end Sys2Proof.Machine
end

