-- ==== Sys2Proof/Laws/PerInstr.lean ====
section
/-! SUPPORT. What is said of every instruction, one lemma for each: its encoding is one parcel or two (R130). -/
namespace Sys2Proof.Laws.EncodeLength
open Sys2Proof

/-- The encoding is one parcel or two (R130), whatever the table of R136. -/
def Statement (i : Instr) : Prop :=
  ∀ pairs : PairTable, (encode pairs i).length = 1 ∨ (encode pairs i).length = 2

/-- Every form packs into one parcel or two. -/
theorem pack_length (pairs : PairTable) (f : Form) :
    (f.pack pairs).length = 1 ∨ (f.pack pairs).length = 2 := by
  cases f <;> simp only [Form.pack, packImm] <;> first | exact .inl rfl | exact .inr rfl | (split <;> simp)

theorem of_form (i : Instr) : Statement i := by
  intro pairs
  simpa [encode] using pack_length pairs (formOf i)

theorem ldwsp (d : Reg) (u16 : BitVec 16) : Statement (.ldwsp d u16) := of_form _
theorem stwsp (src : Reg) (u16 : BitVec 16) : Statement (.stwsp src u16) := of_form _
theorem ldawsp (d : Reg) (u16 : BitVec 16) : Statement (.ldawsp d u16) := of_form _
theorem ldwdp (d : Reg) (u16 : BitVec 16) : Statement (.ldwdp d u16) := of_form _
theorem stwdp (src : Reg) (u16 : BitVec 16) : Statement (.stwdp src u16) := of_form _
theorem ldawdp (d : Reg) (u16 : BitVec 16) : Statement (.ldawdp d u16) := of_form _
theorem ldc (d : Reg) (u16 : BitVec 16) : Statement (.ldc d u16) := of_form _
theorem ldwcp (d : Reg) (u16 : BitVec 16) : Statement (.ldwcp d u16) := of_form _
theorem ldawcp (u16 : BitVec 16) : Statement (.ldawcp u16) := of_form _
theorem ldwcpl (u20 : BitVec 20) : Statement (.ldwcpl u20) := of_form _
theorem ldapf (u20 : BitVec 20) : Statement (.ldapf u20) := of_form _
theorem ldapb (u20 : BitVec 20) : Statement (.ldapb u20) := of_form _
theorem ldwi (d b : Reg) (us : Us) : Statement (.ldwi d b us) := of_form _
theorem stwi (src b : Reg) (us : Us) : Statement (.stwi src b us) := of_form _
theorem ldawfi (d b : Reg) (us : Us) : Statement (.ldawfi d b us) := of_form _
theorem ldawbi (d b : Reg) (us : Us) : Statement (.ldawbi d b us) := of_form _
theorem ldw (d b i : Reg) : Statement (.ldw d b i) := of_form _
theorem stw (src b i : Reg) : Statement (.stw src b i) := of_form _
theorem ldawf (d b i : Reg) : Statement (.ldawf d b i) := of_form _
theorem ldawb (d b i : Reg) : Statement (.ldawb d b i) := of_form _
theorem ld16s (d b i : Reg) : Statement (.ld16s d b i) := of_form _
theorem st16 (src b i : Reg) : Statement (.st16 src b i) := of_form _
theorem lda16f (d b i : Reg) : Statement (.lda16f d b i) := of_form _
theorem lda16b (d b i : Reg) : Statement (.lda16b d b i) := of_form _
theorem ld8u (d b i : Reg) : Statement (.ld8u d b i) := of_form _
theorem st8 (src b i : Reg) : Statement (.st8 src b i) := of_form _
theorem add (d x y : Reg) : Statement (.add d x y) := of_form _
theorem addi (d x : Reg) (us : Us) : Statement (.addi d x us) := of_form _
theorem sub (d x y : Reg) : Statement (.sub d x y) := of_form _
theorem subi (d x : Reg) (us : Us) : Statement (.subi d x us) := of_form _
theorem neg (d src : Reg) : Statement (.neg d src) := of_form _
theorem eq (c x y : Reg) : Statement (.eq c x y) := of_form _
theorem eqi (c x : Reg) (us : Us) : Statement (.eqi c x us) := of_form _
theorem lss (c x y : Reg) : Statement (.lss c x y) := of_form _
theorem lsu (c x y : Reg) : Statement (.lsu c x y) := of_form _
theorem and (d x y : Reg) : Statement (.and d x y) := of_form _
theorem or (d x y : Reg) : Statement (.or d x y) := of_form _
theorem xor (d x y : Reg) : Statement (.xor d x y) := of_form _
theorem not (d src : Reg) : Statement (.not d src) := of_form _
theorem andnot (d src : Reg) : Statement (.andnot d src) := of_form _
theorem shl (d x y : Reg) : Statement (.shl d x y) := of_form _
theorem shli (d x : Reg) (bitp : Us) : Statement (.shli d x bitp) := of_form _
theorem shr (d x y : Reg) : Statement (.shr d x y) := of_form _
theorem shri (d x : Reg) (bitp : Us) : Statement (.shri d x bitp) := of_form _
theorem ashr (d x y : Reg) : Statement (.ashr d x y) := of_form _
theorem ashri (d x : Reg) (bitp : Us) : Statement (.ashri d x bitp) := of_form _
theorem mul (d x y : Reg) : Statement (.mul d x y) := of_form _
theorem divs (d x y : Reg) : Statement (.divs d x y) := of_form _
theorem divu (d x y : Reg) : Statement (.divu d x y) := of_form _
theorem rems (d x y : Reg) : Statement (.rems d x y) := of_form _
theorem remu (d x y : Reg) : Statement (.remu d x y) := of_form _
theorem mkmsk (d src : Reg) : Statement (.mkmsk d src) := of_form _
theorem mkmski (d : Reg) (bitp : Us) : Statement (.mkmski d bitp) := of_form _
theorem sext (d src : Reg) : Statement (.sext d src) := of_form _
theorem sexti (d : Reg) (bitp : Us) : Statement (.sexti d bitp) := of_form _
theorem zext (d src : Reg) : Statement (.zext d src) := of_form _
theorem zexti (d : Reg) (bitp : Us) : Statement (.zexti d bitp) := of_form _
theorem bitrev (d src : Reg) : Statement (.bitrev d src) := of_form _
theorem byterev (d src : Reg) : Statement (.byterev d src) := of_form _
theorem clz (d src : Reg) : Statement (.clz d src) := of_form _
theorem brft (c : Reg) (u16 : BitVec 16) : Statement (.brft c u16) := of_form _
theorem brff (c : Reg) (u16 : BitVec 16) : Statement (.brff c u16) := of_form _
theorem brbt (c : Reg) (u16 : BitVec 16) : Statement (.brbt c u16) := of_form _
theorem brbf (c : Reg) (u16 : BitVec 16) : Statement (.brbf c u16) := of_form _
theorem brfu (u16 : BitVec 16) : Statement (.brfu u16) := of_form _
theorem brbu (u16 : BitVec 16) : Statement (.brbu u16) := of_form _
theorem bru (src : Reg) : Statement (.bru src) := of_form _
theorem bau (src : Reg) : Statement (.bau src) := of_form _
theorem blrf (u20 : BitVec 20) : Statement (.blrf u20) := of_form _
theorem blrb (u20 : BitVec 20) : Statement (.blrb u20) := of_form _
theorem bla (src : Reg) : Statement (.bla src) := of_form _
theorem blacp (u20 : BitVec 20) : Statement (.blacp u20) := of_form _
theorem blat (u16 : BitVec 16) : Statement (.blat u16) := of_form _
theorem entsp (u16 : BitVec 16) : Statement (.entsp u16) := of_form _
theorem retsp (u16 : BitVec 16) : Statement (.retsp u16) := of_form _
theorem extsp (u16 : BitVec 16) : Statement (.extsp u16) := of_form _
theorem extdp (u16 : BitVec 16) : Statement (.extdp u16) := of_form _
theorem setsp (src : Reg) : Statement (.setsp src) := of_form _
theorem setdp (src : Reg) : Statement (.setdp src) := of_form _
theorem setcp (src : Reg) : Statement (.setcp src) := of_form _
theorem getr (d : Reg) (us : Us) : Statement (.getr d us) := of_form _
theorem freer (r : Reg) : Statement (.freer r) := of_form _
theorem setc (r src : Reg) : Statement (.setc r src) := of_form _
theorem setci (r : Reg) (u16 : BitVec 16) : Statement (.setci r u16) := of_form _
theorem tinitpc (src t : Reg) : Statement (.tinitpc src t) := of_form _
theorem tinitsp (src t : Reg) : Statement (.tinitsp src t) := of_form _
theorem tinitdp (src t : Reg) : Statement (.tinitdp src t) := of_form _
theorem tinitcp (src t : Reg) : Statement (.tinitcp src t) := of_form _
theorem tinitlr (src t : Reg) : Statement (.tinitlr src t) := of_form _
theorem tsetr (d src t : Reg) : Statement (.tsetr d src t) := of_form _
theorem tsetmr (d src : Reg) : Statement (.tsetmr d src) := of_form _
theorem getst (d r : Reg) : Statement (.getst d r) := of_form _
theorem tstart (t : Reg) : Statement (.tstart t) := of_form _
theorem ssync : Statement (.ssync) := of_form _
theorem msync (r : Reg) : Statement (.msync r) := of_form _
theorem mjoin (r : Reg) : Statement (.mjoin r) := of_form _
theorem freet : Statement (.freet) := of_form _
theorem getid : Statement (.getid) := of_form _
theorem setd (r src : Reg) : Statement (.setd r src) := of_form _
theorem getd (d r : Reg) : Statement (.getd d r) := of_form _
theorem setn (r src : Reg) : Statement (.setn r src) := of_form _
theorem getn (d r : Reg) : Statement (.getn d r) := of_form _
theorem outt (r src : Reg) : Statement (.outt r src) := of_form _
theorem outct (r src : Reg) : Statement (.outct r src) := of_form _
theorem outcti (r : Reg) (us : Us) : Statement (.outcti r us) := of_form _
theorem int (d r : Reg) : Statement (.int d r) := of_form _
theorem inct (d r : Reg) : Statement (.inct d r) := of_form _
theorem chkct (r src : Reg) : Statement (.chkct r src) := of_form _
theorem chkcti (r : Reg) (us : Us) : Statement (.chkcti r us) := of_form _
theorem out (r src : Reg) : Statement (.out r src) := of_form _
theorem in_ (d r : Reg) : Statement (.in_ d r) := of_form _
theorem testct (d r : Reg) : Statement (.testct d r) := of_form _
theorem testwct (d r : Reg) : Statement (.testwct d r) := of_form _
theorem testlcl (d r : Reg) : Statement (.testlcl d r) := of_form _
theorem setclk (r src : Reg) : Statement (.setclk r src) := of_form _
theorem setrdy (r src : Reg) : Statement (.setrdy r src) := of_form _
theorem outshr (r d : Reg) : Statement (.outshr r d) := of_form _
theorem inshr (d r : Reg) : Statement (.inshr d r) := of_form _
theorem peek (d r : Reg) : Statement (.peek d r) := of_form _
theorem setpt (r src : Reg) : Statement (.setpt r src) := of_form _
theorem clrpt (r : Reg) : Statement (.clrpt r) := of_form _
theorem getts (d r : Reg) : Statement (.getts d r) := of_form _
theorem settw (r src : Reg) : Statement (.settw r src) := of_form _
theorem setpsc (r src : Reg) : Statement (.setpsc r src) := of_form _
theorem endin (d r : Reg) : Statement (.endin d r) := of_form _
theorem outpw (src r : Reg) (bitp : Us) : Statement (.outpw src r bitp) := of_form _
theorem inpw (d r : Reg) (bitp : Us) : Statement (.inpw d r bitp) := of_form _
theorem syncr (r : Reg) : Statement (.syncr r) := of_form _
theorem getsr (u16 : BitVec 16) : Statement (.getsr u16) := of_form _
theorem setsr (u16 : BitVec 16) : Statement (.setsr u16) := of_form _
theorem clrsr (u16 : BitVec 16) : Statement (.clrsr u16) := of_form _
theorem setv (r : Reg) : Statement (.setv r) := of_form _
theorem setev (r : Reg) : Statement (.setev r) := of_form _
theorem eet (d r : Reg) : Statement (.eet d r) := of_form _
theorem eef (d r : Reg) : Statement (.eef d r) := of_form _
theorem eeu (r : Reg) : Statement (.eeu r) := of_form _
theorem edu (r : Reg) : Statement (.edu r) := of_form _
theorem clre : Statement (.clre) := of_form _
theorem waitet (c : Reg) : Statement (.waitet c) := of_form _
theorem waitef (c : Reg) : Statement (.waitef c) := of_form _
theorem waiteu : Statement (.waiteu) := of_form _
theorem ecallt (c : Reg) : Statement (.ecallt c) := of_form _
theorem ecallf (c : Reg) : Statement (.ecallf c) := of_form _
theorem kcall (src : Reg) : Statement (.kcall src) := of_form _
theorem kcalli (u16 : BitVec 16) : Statement (.kcalli u16) := of_form _
theorem kret : Statement (.kret) := of_form _
theorem ldspc : Statement (.ldspc) := of_form _
theorem stspc : Statement (.stspc) := of_form _
theorem ldssr : Statement (.ldssr) := of_form _
theorem stssr : Statement (.stssr) := of_form _
theorem ldsed : Statement (.ldsed) := of_form _
theorem stsed : Statement (.stsed) := of_form _
theorem ldet : Statement (.ldet) := of_form _
theorem stet : Statement (.stet) := of_form _
theorem getet : Statement (.getet) := of_form _
theorem geted : Statement (.geted) := of_form _
theorem kentsp (u16 : BitVec 16) : Statement (.kentsp u16) := of_form _
theorem krestsp (u16 : BitVec 16) : Statement (.krestsp u16) := of_form _
theorem setkep : Statement (.setkep) := of_form _
theorem getkep : Statement (.getkep) := of_form _
theorem getksp : Statement (.getksp) := of_form _
theorem dcall : Statement (.dcall) := of_form _
theorem dret : Statement (.dret) := of_form _
theorem dentsp : Statement (.dentsp) := of_form _
theorem drestsp : Statement (.drestsp) := of_form _
theorem dgetreg (src : Reg) : Statement (.dgetreg src) := of_form _
theorem getps (d r : Reg) : Statement (.getps d r) := of_form _
theorem setps (r src : Reg) : Statement (.setps r src) := of_form _
theorem ladd (d e x y v : Reg) : Statement (.ladd d e x y v) := of_form _
theorem lsub (d e x y v : Reg) : Statement (.lsub d e x y v) := of_form _
theorem ldivu (d e x y v : Reg) : Statement (.ldivu d e x y v) := of_form _
theorem lmul (d e x y v w : Reg) : Statement (.lmul d e x y v w) := of_form _
theorem maccs (d e x y : Reg) : Statement (.maccs d e x y) := of_form _
theorem maccu (d e x y : Reg) : Statement (.maccu d e x y) := of_form _
theorem crc (r d p : Reg) : Statement (.crc r d p) := of_form _
theorem crc8 (o r d p : Reg) : Statement (.crc8 o r d p) := of_form _

end Sys2Proof.Laws.EncodeLength
end

