-- ==== Sys2Proof/Laws/Ports.lean ====
section
/-! SUPPORT. What the shared operations of the port instructions can do, said once (R470, R471, R479). -/
namespace Sys2Proof.Machine

theorem outPort_full {r v : Word} {n : Nat} {f : Port → Port} {k : State → State} {s : State}
    (hd : (s.port n).direction = .output) (ht : (s.port n).trfull = true) :
    outPort r n v f k s =
      .next ((s.withThr s.tid s.waitingCur).withPortN n { s.port n with waiter := some s.tid }) := by
  rw [outPort, hd, ht]; exact pauseOnPort_eq n s

theorem outPort_inputting {r v : Word} {n : Nat} {f : Port → Port} {k : State → State} {s : State}
    (hd : (s.port n).direction = .input) (hb : (s.port n).modes.bufmode = .buffered)
    (hi : (s.port n).inputting = true) : outPort r n v f k s = badResource r s := by
  simp [outPort, hd, hb, hi]

theorem outPort_done {r v : Word} {n : Nat} {f : Port → Port} {k : State → State} {s : State}
    (h1 : ¬((s.port n).direction = .output ∧ (s.port n).trfull = true))
    (h2 : ¬((s.port n).direction = .input ∧ (s.port n).modes.bufmode = .buffered ∧ (s.port n).inputting = true)) :
    outPort r n v f k s = .next (k (s.withPortN n (f ((s.port n).fill v)))) := by
  rw [outPort, if_neg (by simpa using h1), if_neg (by simpa [and_assoc] using h2), State.updPort_eq]

theorem inPort_buffered_output {r : Word} {n : Nat} {f : Port → Port} {k : Word → State → State} {s : State}
    (hd : (s.port n).direction = .output) (hb : (s.port n).modes.bufmode = .buffered) :
    inPort r n f k s = badResource r s := by
  simp [inPort, hd, hb]

theorem inPort_ready {r : Word} {n : Nat} {f : Port → Port} {k : Word → State → State} {s : State}
    (hd : (s.port n).direction = .input) (ht : (s.port n).trfull = true) :
    inPort r n f k s = .next (k (lowBits (s.port n).transfer (s.port n).trwidth)
      (s.withPortN n (f (s.port n)).take)) := by
  simp [inPort, hd, ht, State.updPort_eq]

theorem inPort_empty {r : Word} {n : Nat} {f : Port → Port} {k : Word → State → State} {s : State}
    (hd : (s.port n).direction = .input) (ht : (s.port n).trfull = false) :
    inPort r n f k s =
      pauseOnPort n (s.withPortN n { f (s.port n) with direction := .input }) := by
  simp [inPort, hd, ht, State.updPort_eq]

theorem withCount_valid {s : State} {r : Word} {n c : Nat} (h : s.live r = some (.port n))
    (hb : (s.port n).modes.bufmode = .buffered) (hc : (s.port n).validCount c = true) (k : Nat → State → Result) :
    withCount r c k s = k n s := by
  rw [withCount, withPort_live h]; simp [hb, hc]

theorem withCount_invalid {s : State} {r : Word} {n c : Nat} (h : s.live r = some (.port n))
    (hc : ¬((s.port n).modes.bufmode = .buffered ∧ (s.port n).validCount c = true)) (k : Nat → State → Result) :
    withCount r c k s = badResource r s := by
  rw [withCount, withPort_live h, if_neg (by simpa using hc)]

/-- A cycle keeps the port's identifier, and so its width (R70). -/
theorem Port.cycle_id (p : Port) (b : Bool) (x : Word) : (p.cycle b x).id = p.id := by
  unfold Port.cycle
  simp only
  split
  · unfold Port.cycleEnabled
    split
    · unfold Port.cycleSync; split <;> (split <;> rfl)
    · unfold Port.cycleOut
      simp only
      have : ∀ p : Port, p.reload.id = p.id := by intro p; unfold Port.reload; split <;> rfl
      split <;> simp [Port.driveOut, this]
    · have hr : ∀ p : Port, p.refill.id = p.id := by intro p; unfold Port.refill; split <;> rfl
      split
      · unfold Port.cycleIn; split <;> simp [hr]
      · unfold Port.cycleCond; simp only; split <;> rfl
  · rfl

/-- The setup of a cycle keeps the port's identifier, and so its width (R70). -/
@[simp] theorem Port.setup_id (p : Port) : p.setup.id = p.id := rfl
@[simp] theorem Port.setup_modes (p : Port) : p.setup.modes = p.modes := rfl
@[simp] theorem Port.setup_inuse (p : Port) : p.setup.inuse = p.inuse := rfl
@[simp] theorem Port.setup_clk (p : Port) : p.setup.clk = p.clk := rfl
@[simp] theorem Port.setup_ext (p : Port) : p.setup.ext = p.ext := rfl
@[simp] theorem Port.setup_porttimer (p : Port) : p.setup.porttimer = p.porttimer + 1#16 := rfl

/-- A port that inputs does not drive its pins once it is set up (R469, R479). -/
theorem Port.setup_input {p : Port} (h : p.setup.direction = .input) : p.setup.driving = false := by
  have h' : p.advanced.direction = .input := h
  simp [Port.setup, h']

/-- What a clock edge does to each port (R462): nothing, or its setup and a cycle. -/
theorem State.cyclePorts_port {s : State} {sel : Port → Bool} {n : Nat} (hn : n < s.ports.length) :
    (s.cyclePorts sel).port n =
      if (s.port n).inuse && (s.port n).running && sel (s.port n) then
        let s' : State := { s with ports := s.ports.map fun p => if p.inuse && p.running && sel p then p.setup else p }
        (s.port n).setup.cycle (s'.rdyin (s.port n).setup) ((s.port n).setup.inverted (s'.pins n))
      else s.port n := by
  have hp : s.port n = s.ports[n] := by simp [State.port, hn]
  by_cases h : ((s.port n).inuse && (s.port n).running && sel (s.port n)) = true
  · simp_all [State.cyclePorts, State.port]
  · rw [if_neg h]
    rw [hp] at h ⊢
    simp only [State.cyclePorts, State.port, List.getD_eq_getElem?_getD, List.getElem?_map, List.getElem?_range hn,
      Option.map_some, Option.getD_some, List.getElem?_eq_getElem hn, if_neg h]

/-- INVERT, bit by bit (R468). -/
theorem Port.inverted_getLsbD (p : Port) (w : Word) {k : Nat} (hk : k < 32) :
    (p.inverted w).getLsbD k = (decide (k < p.width) && (w.getLsbD k != decide (p.modes.invert = .invert))) := by
  unfold Port.inverted
  split <;> rename_i h <;> simp only [h, lowBits_getLsbD, Bool.and_comm, BitVec.getLsbD_not] <;> simp [hk]

/-- What a port that drives shows on each pin, by its drive mode (R468). -/
theorem Port.drivenPins_getLsbD (p : Port) (w : Word) (k : Nat) :
    (p.drivenPins w).getLsbD k = (decide (k < p.width) && match p.modes.drive with
      | .drive => w.getLsbD k
      | .pullDown => w.getLsbD k && p.ext.getLsbD k
      | .pullUp => w.getLsbD k || p.ext.getLsbD k) := by
  unfold Port.drivenPins
  cases p.modes.drive <;> simp only [lowBits_getLsbD, BitVec.getLsbD_and, BitVec.getLsbD_or, Bool.and_comm]

end Sys2Proof.Machine
end

