-- ==== Sys2Proof/Laws/Resources.lean ====
section
/-! SUPPORT. What the shared operations of the resource, thread and synchroniser instructions can do, said once. -/
namespace Sys2Proof.Machine

/-! ## Allocation (R355) -/

theorem firstFree_some {n k : Nat} {used : Nat → Bool} (h : k < n) (h1 : used k = false)
    (h2 : ∀ j < k, used j = true) : firstFree n used = some k := by
  unfold firstFree
  rw [List.find?_range_eq_some]
  refine ⟨by simp [h1], by simpa using h, fun j hj => by simp [h2 j hj]⟩

theorem firstFree_none {n : Nat} {used : Nat → Bool} (h : ∀ k < n, used k = true) : firstFree n used = none := by
  unfold firstFree
  rw [List.find?_eq_none]
  intro j hj
  simp [h j (by simpa using hj)]

theorem allocate_some (d : Reg) (k : Nat) (alloc : State → Nat → State) (ident : Nat → Word) (s : State) :
    allocate d (some k) alloc ident s = writeReg d (ident k) (alloc s k) := rfl

theorem allocate_none (d : Reg) (alloc : State → Nat → State) (ident : Nat → Word) (s : State) :
    ∃ t, allocate d none alloc ident s = .next t ∧ s.becomes t (s.cur.put d 0#32) := writeReg_spec s d 0#32

/-! ## Modes (R357, R452) -/

theorem setControl_port {s : State} {r v : Word} {n : Nat} {m : Mode} {q : Port} (hm : modeOf v = some m)
    (hr : s.lookup r = some (.port n)) (hi : ((s.port n).inuse || m.skipsOnPort s.plat) = true)
    (hq : (s.port n).setMode s.plat s.free m = some q) :
    setControl r v s = .next { s.withPortN n q with free := s.free + m.freeUsed } := by
  simp only [setControl, hm, hr, hi, if_true, hq, State.updPort_eq]

theorem setControl_none {s : State} {r v : Word} (h : modeOf v = none ∨ s.lookup r = none) :
    setControl r v s = badResource r s := by
  unfold setControl
  rcases h with h | h
  · simp [h]
  · simp only [h]
    split <;> simp_all

/-! ## Paused threads (R370) -/

theorem withPausedThread_paused {s : State} {r : Word} {n : Nat} (h : s.live r = some (.thread n))
    (hp : n ∈ s.spaused) (k : Nat → State → Result) : withPausedThread r k s = k n s := by
  rw [withPausedThread, withThread_live h]; simp [hp]

theorem withPausedThread_running {s : State} {r : Word} {n : Nat} (h : s.live r = some (.thread n))
    (hp : n ∉ s.spaused) (k : Nat → State → Result) : withPausedThread r k s = badResource r s := by
  rw [withPausedThread, withThread_live h]; simp [hp]

theorem initReg_eq {s : State} {t : Word} {n : Nat} (h : s.live t = some (.thread n)) (hp : n ∈ s.spaused) (i : Reg)
    (v : Word) : initReg i v t s = .next (s.withThr n ((s.thr n).put i v)) := by
  rw [initReg, withPausedThread_paused h hp, State.updThr_eq]

/-! ## Synchronisers (R376 to R383) -/

theorem State.synOf_of {s : State} {t k : Nat} (h : (s.thr t).syn = some k) (h1 : (s.sync k).inuse = true)
    (h2 : t ∈ (s.sync k).slaves) : s.synOf t = some k := by
  simp [State.synOf, h, h1, h2, Option.filter]

theorem State.synOf_none {s : State} {t : Nat} (h : (s.thr t).syn = none) : s.synOf t = none := by
  simp [State.synOf, h]

/-- No slave is running where all are paused. -/
theorem State.running_nil_iff (s : State) (k : Nat) : s.running k = [] ↔ ∀ q ∈ (s.sync k).slaves, q ∈ s.spaused := by
  simp [State.running, minusSet, List.filter_eq_nil_iff]

theorem State.clearEeble_eq (s : State) :
    s.clearEeble = s.withThr s.tid { s.cur with sr := { s.cur.sr with eeble := false } } := by
  rw [State.clearEeble, State.updCur, State.updThr_eq]; rfl

theorem foldl_free_eq (l : List Nat) (s : State) :
    l.foldl (fun s x => s.updThr x fun t => { t with inuse := false }) s =
      { s with threads := (l.foldl (fun s x => s.updThr x fun t => { t with inuse := false }) s).threads } := by
  induction l generalizing s with
  | nil => rfl
  | cons a l ih =>
    rw [List.foldl_cons]
    conv_lhs => rw [ih]
    rfl

theorem foldl_free_length (l : List Nat) (s : State) :
    (l.foldl (fun s x => s.updThr x fun t => { t with inuse := false }) s).threads.length = s.threads.length := by
  induction l generalizing s with
  | nil => rfl
  | cons a l ih => rw [List.foldl_cons, ih]; simp [State.updThr]

theorem foldl_free_thr (l : List Nat) (s : State) (q : Nat) :
    (l.foldl (fun s x => s.updThr x fun t => { t with inuse := false }) s).thr q =
      if q ∈ l then { s.thr q with inuse := false } else s.thr q := by
  induction l generalizing s with
  | nil => simp
  | cons a l ih =>
    rw [List.foldl_cons, ih]
    have : (s.updThr a fun t => { t with inuse := false }).thr q =
        if q = a then { s.thr q with inuse := false } else s.thr q := by
      rw [State.updThr_eq, State.thr_withThr]
      by_cases h : q = a
      · subst h
        by_cases hl : q < s.threads.length
        · simp [hl]
        · simp only [hl, and_false, if_false, if_true]
          rw [s.thr_of_length_le (by omega)]; rfl
      · rw [if_neg (by tauto), if_neg h]
    rw [this]
    by_cases h : q = a <;> by_cases h' : q ∈ l <;> simp [h, h']

/-- The freed slaves, and no other thread, are no longer in use (R383). -/
theorem State.freeSlaves_thr (s : State) (k q : Nat) : (s.freeSlaves k).thr q =
    if q ∈ (s.sync k).slaves then { s.thr q with inuse := false } else s.thr q := foldl_free_thr _ _ _

theorem State.freeSlaves_length (s : State) (k : Nat) : (s.freeSlaves k).threads.length = s.threads.length :=
  foldl_free_length _ _

theorem State.freeSlaves_eq (s : State) (k : Nat) : s.freeSlaves k =
    { s.withSyncN k { s.sync k with slaves := [], mjoin := false } with threads := (s.freeSlaves k).threads } := by
  rw [State.freeSlaves, State.updSync_eq, foldl_free_eq]; rfl

end Sys2Proof.Machine
end

