-- ==== Sys2Proof/Laws/Schedule.lean ====
section
/-! SUPPORT. What the fixed schedule can do, said once: its order of waiting agents, its deliveries, and the issue of a
thread that has nothing else open (R406, R746). -/
namespace Sys2Proof.Machine

/-- The order leaves no one out and adds no one. -/
@[simp] theorem mem_leastRecent {α : Type} [BEq α] [LawfulBEq α] {all used : List α} {a : α} :
    a ∈ leastRecent all used ↔ a ∈ all := by
  by_cases h : a ∈ used <;> simp [leastRecent, h]

/-- Whoever was served last comes last, so that every other one that waits comes before it (R406). -/
theorem leastRecent_useNow {α : Type} [BEq α] [LawfulBEq α] {all used : List α} {a : α} (h : a ∈ all) :
    ∃ l, leastRecent all (useNow a used) = l ++ [a] :=
  ⟨(all.filter fun b => !(useNow a used).contains b) ++ (used.filter fun b => b != a).filter all.contains,
    by simp [leastRecent, useNow, h]⟩

/-- A delivery of the fixed schedule is a delivery, but for the note of who was served. -/
theorem State.deliverNext_eq (s : State) (c : Nat) :
    s.deliverNext c = { s.deliver c with served := (s.deliverNext c).served } := by
  unfold State.deliverNext
  simp only
  split <;> rfl

theorem find?_leastRecent_none {all used : List ResRef} {f : ResRef → Bool} (h : ∀ q ∈ all, f q = false) :
    (leastRecent all used).find? f = none := by
  simp only [List.find?_eq_none, mem_leastRecent]
  intro q hq
  simp [h q hq]

/-- A thread with no debug request due and no entry open issues its instruction (R651 c). -/
theorem State.autoThread_issue {s : State} {t : Nat} (hr : s.runnable t = true) (hd : t = 0 → s.debugDue = false)
    (ho : ∀ q ∈ s.allRefs, s.interruptOpen t q = false ∧ s.eventOpen t q = false) : s.autoThread t = s.issue t := by
  have hw : (s.thr t).sr.waiting = false := by
    simp only [State.runnable, Bool.and_eq_true, Bool.not_eq_true'] at hr
    exact hr.2
  have hm : (decide (t = 0) && s.debugDue) = false := by
    by_cases h : t = 0
    · simp [h, hd h]
    · simp [h]
  have hf : ((leastRecent s.allRefs s.taken).find? fun r => s.interruptOpen t r || s.eventOpen t r) = none :=
    find?_leastRecent_none fun q hq => by simp [ho q hq]
  rw [State.autoThread, State.threadMove, if_neg (by simpa using hm), hf]
  simp [State.resumable, hw, hr]

end Sys2Proof.Machine
end

