-- ==== Sys2Proof/Laws/Transfers.lean ====
section
/-! SUPPORT. What each transfer of control can do, said once: calls, kernel calls and returns, waits, the entries of
events, interrupts and debug mode, and the fetch. -/
namespace Sys2Proof.Machine

theorem branchIf_spec (c : Bool) (v : Word) (s : State) :
    ∃ t, branchIf c v s = .next t ∧ s.becomes t { s.cur with pc := if c then v else s.cur.pc } := by
  cases c
  · exact ⟨s, rfl, s.becomes_self⟩
  · exact ⟨_, rfl, s.becomes_jump v⟩

theorem call_spec (v : Word) (s : State) :
    ∃ t, call v s = .next t ∧ s.becomes t { s.cur.put lr s.cur.pc with pc := v } := by
  refine ⟨_, rfl, ?_⟩
  rw [State.setX_eq]
  exact s.becomes_jump_withThr _ _

/-- Taking an exception at any vector (R660, R661). -/
theorem State.becomes_takeException (s : State) (code info vector : Word) :
    s.becomes (s.takeException code info vector)
      { s.cur.saveForException s.pcThis code info with pc := vector } := by
  have := s.becomes_jump_withThr (s.cur.saveForException s.pcThis code info) vector
  simpa [State.takeException, State.updCur, State.updThr_eq, State.cur] using this

/-- The return from interrupt, exception and kernel call (R554). -/
theorem State.becomes_kernelReturn (s : State) :
    s.becomes s.kernelReturn { s.cur with sr := SR.restored s.cur.ssr, ed := s.cur.sed, pc := s.cur.spc } := by
  have := s.becomes_jump_withThr { s.cur with sr := SR.restored s.cur.ssr, ed := s.cur.sed } s.cur.spc
  simpa [State.kernelReturn, State.updCur, State.updThr_eq, State.cur] using this

theorem inDebug_on {s : State} (h : s.dbg.indbg = true) (k : State → Result) : inDebug k s = k s := by
  simp [inDebug, h]

theorem inDebug_off {s : State} (h : s.dbg.indbg = false) (k : State → Result) :
    ∃ t, inDebug k s = .next t ∧ s.trapped t 3#32 0#32 := by
  rw [inDebug, h]; exact raised_spec s .illegalInstruction 0#32

/-- A jump of any thread: that thread's pc, and no old parcel is added. -/
theorem State.jumpThr_eq (s : State) (n : Nat) (v : Word) : s.jumpThr n v =
    { s.withThr n { s.thr n with pc := v } with stale := s.stale.filter fun e => e.thread != n } := by
  rw [State.jumpThr, State.updThr_eq]

/-- What a thread leaves behind when it is taken away from its instruction (R655, R657, R592). -/
theorem State.detach_eq (s : State) (t : Nat) : s.detach t = { s with
    ports := s.ports.map fun p => { p with waiter := forget t p.waiter, pw := forget t p.pw }
    timers := s.timers.map fun x => { x with waiter := forget t x.waiter }
    chans := s.chans.map fun c => { c with waiterIn := forget t c.waiterIn, waiterOut := forget t c.waiterOut }
    locks := s.locks.map fun l => { l with queue := l.queue.filter fun q => q != t } } := by
  simp [State.detach, State.clearWaiter, Function.comp_def]

@[simp] theorem State.detach_thr (s : State) (t n : Nat) : (s.detach t).thr n = s.thr n := by
  rw [State.detach_eq]; rfl

@[simp] theorem State.clearWaiter_thr (s : State) (t n : Nat) : (s.clearWaiter t).thr n = s.thr n := rfl

/-- A fetch where the instruction buffer holds nothing old: what memory holds. -/
theorem State.fetchParcel_fresh {s : State} {t : Nat} (h : ∀ e ∈ s.stale, e.thread ≠ t) (a : Nat) :
    s.fetchParcel t a = (Memory.parcel s.mem a, s) := by
  have : s.staleAt t a = [] := by
    simp only [State.staleAt, List.map_eq_nil_iff, List.filter_eq_nil_iff, Bool.and_eq_true, beq_iff_eq, not_and]
    intro e he h'
    exact absurd h' (h e he)
  rw [State.fetchParcel, this]

/-- A wait for an event (R540). -/
theorem waitForEvent_eq (s : State) : waitForEvent s = .next (s.withThr s.tid { s.cur with
    pc := s.pcThis, sr := { s.cur.sr with eeble := true, waiting := true }, evwait := true }) := by
  have h : ∀ (l : List Thread) (n : Nat) (f g : Thread → Thread), (l.modify n f).modify n g = l.modify n (g ∘ f) := by
    intro l n f g; exact List.modify_modify_eq f g n l
  simp only [waitForEvent, State.await, State.updCur, State.updThr, State.withThr, State.cur, State.thr, h]
  rw [modify_eq_set_getD _ _ _ Thread.blank]
  rfl

end Sys2Proof.Machine
end

