-- ==== Sys2Proof/Tests/Slice0.lean ====
section
/-! SUPPORT. The model's own tests: which terms are instructions, what the words of spec/95_test_vectors.md section 3.1
decode to, one step of each instruction with the results of sections 3.3 to 3.12 there, and for every statement of
Certificates/Slice0/Obligations.lean a witness that its hypotheses can be met. -/
namespace Sys2Proof.Tests
open Sys2Proof Sys2Proof.Machine
set_option Elab.async false

/-! ## Well-formedness: for each check, a term that only that check refuses -/

theorem test_wellFormed_1 : ([.ldwsp 11 0xFFFF#16, .stwsp 11 0xFFFF#16, .ldawsp 11 0xFFFF#16, .ldwdp 11 0xFFFF#16, .stwdp 11 0xFFFF#16, .ldawdp 11 0xFFFF#16, .ldc 11 0xFFFF#16,
  .ldwcp 11 0xFFFF#16, .ldawcp 0xFFFF#16, .ldwcpl 0xFFFFF#20, .ldapf 0xFFFFF#20, .ldapb 0xFFFFF#20, .ldwi 11 11 11, .stwi 11 11 11,
  .ldawfi 11 11 11, .ldawbi 11 11 11, .ldw 11 11 11, .stw 11 11 11, .ldawf 11 11 11, .ldawb 11 11 11, .ld16s 11 11 11,
  .st16 11 11 11, .lda16f 11 11 11, .lda16b 11 11 11, .ld8u 11 11 11, .st8 11 11 11, .add 11 11 11, .addi 11 11 11,
  .sub 11 11 11, .subi 11 11 11, .neg 11 11, .eq 11 11 11, .eqi 11 11 11, .lss 11 11 11, .lsu 11 11 11,
  .and 11 11 11, .or 11 11 11, .xor 11 11 11, .not 11 11, .andnot 11 11, .shl 11 11 11, .shli 11 11 11,
  .shr 11 11 11, .shri 11 11 11, .ashr 11 11 11, .ashri 11 11 11, .mul 11 11 11, .divs 11 11 11, .divu 11 11 11,
  .rems 11 11 11, .remu 11 11 11, .mkmsk 11 11, .mkmski 11 11, .sext 11 11, .sexti 11 11, .zext 11 11,
  .zexti 11 11, .bitrev 11 11, .byterev 11 11, .clz 11 11] : List Instr).all Instr.wellFormed = true := by
  decide +kernel
theorem test_wellFormed_2 : ([.brft 11 0xFFFF#16, .brff 11 0xFFFF#16, .brbt 11 0xFFFF#16, .brbf 11 0xFFFF#16, .brfu 0xFFFF#16, .brbu 0xFFFF#16, .bru 11,
  .bau 11, .blrf 0xFFFFF#20, .blrb 0xFFFFF#20, .bla 11, .blacp 0xFFFFF#20, .blat 0xFFFF#16, .entsp 0xFFFF#16,
  .retsp 0xFFFF#16, .extsp 0xFFFF#16, .extdp 0xFFFF#16, .setsp 11, .setdp 11, .setcp 11, .getr 11 11,
  .freer 11, .setc 11 11, .setci 11 0xFFFF#16, .tinitpc 11 11, .tinitsp 11 11, .tinitdp 11 11, .tinitcp 11 11,
  .tinitlr 11 11, .tsetr 11 11 11, .tsetmr 11 11, .getst 11 11, .tstart 11, .ssync, .msync 11,
  .mjoin 11, .freet, .getid, .setd 11 11, .getd 11 11, .setn 11 11, .getn 11 11,
  .outt 11 11, .outct 11 11, .outcti 11 11, .int 11 11, .inct 11 11, .chkct 11 11, .chkcti 11 11,
  .out 11 11, .in_ 11 11, .testct 11 11, .testwct 11 11, .testlcl 11 11, .setclk 11 11, .setrdy 11 11,
  .outshr 11 11, .inshr 11 11, .peek 11 11, .setpt 11 11] : List Instr).all Instr.wellFormed = true := by
  decide +kernel
theorem test_wellFormed_3 : ([.clrpt 11, .getts 11 11, .settw 11 11, .setpsc 11 11, .endin 11 11, .outpw 11 11 11, .inpw 11 11 11,
  .syncr 11, .getsr 0xFFFF#16, .setsr 0xFFFF#16, .clrsr 0xFFFF#16, .setv 11, .setev 11, .eet 11 11,
  .eef 11 11, .eeu 11, .edu 11, .clre, .waitet 11, .waitef 11, .waiteu,
  .ecallt 11, .ecallf 11, .kcall 11, .kcalli 0xFFFF#16, .kret, .ldspc, .stspc,
  .ldssr, .stssr, .ldsed, .stsed, .ldet, .stet, .getet,
  .geted, .kentsp 0xFFFF#16, .krestsp 0xFFFF#16, .setkep, .getkep, .getksp, .dcall,
  .dret, .dentsp, .drestsp, .dgetreg 11, .getps 11 11, .setps 11 11, .ladd 11 11 11 11 11,
  .lsub 11 11 11 11 11, .ldivu 11 11 11 11 11, .lmul 11 11 11 11 11 11, .maccs 11 11 11 11, .maccu 11 11 11 11, .crc 11 11 11, .crc8 11 11 11 11] : List Instr).all Instr.wellFormed = true := by
  decide +kernel
theorem test_illFormed_1 : ([.ldwi 12 11 11, .ldwi 11 12 11, .ldwi 11 11 12, .stwi 12 11 11, .stwi 11 12 11, .stwi 11 11 12, .ldawfi 12 11 11,
  .ldawfi 11 12 11, .ldawfi 11 11 12, .ldawbi 12 11 11, .ldawbi 11 12 11, .ldawbi 11 11 12, .ldw 12 11 11, .ldw 11 12 11,
  .ldw 11 11 12, .stw 12 11 11, .stw 11 12 11, .stw 11 11 12, .ldawf 12 11 11, .ldawf 11 12 11, .ldawf 11 11 12,
  .ldawb 12 11 11, .ldawb 11 12 11, .ldawb 11 11 12, .ld16s 12 11 11, .ld16s 11 12 11, .ld16s 11 11 12, .st16 12 11 11,
  .st16 11 12 11, .st16 11 11 12, .lda16f 12 11 11, .lda16f 11 12 11, .lda16f 11 11 12, .lda16b 12 11 11, .lda16b 11 12 11,
  .lda16b 11 11 12, .ld8u 12 11 11, .ld8u 11 12 11, .ld8u 11 11 12, .st8 12 11 11, .st8 11 12 11, .st8 11 11 12,
  .add 12 11 11, .add 11 12 11, .add 11 11 12, .addi 12 11 11, .addi 11 12 11, .addi 11 11 12, .sub 12 11 11,
  .sub 11 12 11, .sub 11 11 12, .subi 12 11 11, .subi 11 12 11, .subi 11 11 12, .neg 12 11, .neg 11 12,
  .eq 12 11 11, .eq 11 12 11, .eq 11 11 12, .eqi 12 11 11] : List Instr).all (fun i => !i.wellFormed) = true := by
  decide +kernel
theorem test_illFormed_2 : ([.eqi 11 12 11, .eqi 11 11 12, .lss 12 11 11, .lss 11 12 11, .lss 11 11 12, .lsu 12 11 11, .lsu 11 12 11,
  .lsu 11 11 12, .and 12 11 11, .and 11 12 11, .and 11 11 12, .or 12 11 11, .or 11 12 11, .or 11 11 12,
  .xor 12 11 11, .xor 11 12 11, .xor 11 11 12, .not 12 11, .not 11 12, .andnot 12 11, .andnot 11 12,
  .shl 12 11 11, .shl 11 12 11, .shl 11 11 12, .shli 12 11 11, .shli 11 12 11, .shli 11 11 12, .shr 12 11 11,
  .shr 11 12 11, .shr 11 11 12, .shri 12 11 11, .shri 11 12 11, .shri 11 11 12, .ashr 12 11 11, .ashr 11 12 11,
  .ashr 11 11 12, .ashri 12 11 11, .ashri 11 12 11, .ashri 11 11 12, .mul 12 11 11, .mul 11 12 11, .mul 11 11 12,
  .divs 12 11 11, .divs 11 12 11, .divs 11 11 12, .divu 12 11 11, .divu 11 12 11, .divu 11 11 12, .rems 12 11 11,
  .rems 11 12 11, .rems 11 11 12, .remu 12 11 11, .remu 11 12 11, .remu 11 11 12, .mkmsk 12 11, .mkmsk 11 12,
  .mkmski 12 11, .mkmski 11 12, .sext 12 11, .sext 11 12] : List Instr).all (fun i => !i.wellFormed) = true := by
  decide +kernel
theorem test_illFormed_3 : ([.sexti 12 11, .sexti 11 12, .zext 12 11, .zext 11 12, .zexti 12 11, .zexti 11 12, .bitrev 12 11,
  .bitrev 11 12, .byterev 12 11, .byterev 11 12, .clz 12 11, .clz 11 12, .brft 12 0xFFFF#16, .brff 12 0xFFFF#16,
  .brbt 12 0xFFFF#16, .brbf 12 0xFFFF#16, .bru 12, .bau 12, .bla 12, .setsp 12, .setdp 12,
  .setcp 12, .getr 12 11, .getr 11 12, .freer 12, .setc 12 11, .setc 11 12, .setci 12 0xFFFF#16,
  .tinitpc 12 11, .tinitpc 11 12, .tinitsp 12 11, .tinitsp 11 12, .tinitdp 12 11, .tinitdp 11 12, .tinitcp 12 11,
  .tinitcp 11 12, .tinitlr 12 11, .tinitlr 11 12, .tsetr 12 11 11, .tsetr 11 12 11, .tsetr 11 11 12, .tsetmr 12 11,
  .tsetmr 11 12, .getst 12 11, .getst 11 12, .tstart 12, .msync 12, .mjoin 12, .setd 12 11,
  .setd 11 12, .getd 12 11, .getd 11 12, .setn 12 11, .setn 11 12, .getn 12 11, .getn 11 12,
  .outt 12 11, .outt 11 12, .outct 12 11, .outct 11 12] : List Instr).all (fun i => !i.wellFormed) = true := by
  decide +kernel
theorem test_illFormed_4 : ([.outcti 12 11, .outcti 11 12, .int 12 11, .int 11 12, .inct 12 11, .inct 11 12, .chkct 12 11,
  .chkct 11 12, .chkcti 12 11, .chkcti 11 12, .out 12 11, .out 11 12, .in_ 12 11, .in_ 11 12,
  .testct 12 11, .testct 11 12, .testwct 12 11, .testwct 11 12, .testlcl 12 11, .testlcl 11 12, .setclk 12 11,
  .setclk 11 12, .setrdy 12 11, .setrdy 11 12, .outshr 12 11, .outshr 11 12, .inshr 12 11, .inshr 11 12,
  .peek 12 11, .peek 11 12, .setpt 12 11, .setpt 11 12, .clrpt 12, .getts 12 11, .getts 11 12,
  .settw 12 11, .settw 11 12, .setpsc 12 11, .setpsc 11 12, .endin 12 11, .endin 11 12, .outpw 12 11 11,
  .outpw 11 12 11, .outpw 11 11 12, .inpw 12 11 11, .inpw 11 12 11, .inpw 11 11 12, .syncr 12, .setv 12,
  .setev 12, .eet 12 11, .eet 11 12, .eef 12 11, .eef 11 12, .eeu 12, .edu 12,
  .waitet 12, .waitef 12, .ecallt 12, .ecallf 12] : List Instr).all (fun i => !i.wellFormed) = true := by
  decide +kernel
theorem test_illFormed_5 : ([.kcall 12, .dgetreg 12, .getps 12 11, .getps 11 12, .setps 12 11, .setps 11 12, .ladd 12 11 11 11 11,
  .ladd 11 12 11 11 11, .ladd 11 11 12 11 11, .ladd 11 11 11 12 11, .ladd 11 11 11 11 12, .lsub 12 11 11 11 11, .lsub 11 12 11 11 11, .lsub 11 11 12 11 11,
  .lsub 11 11 11 12 11, .lsub 11 11 11 11 12, .ldivu 12 11 11 11 11, .ldivu 11 12 11 11 11, .ldivu 11 11 12 11 11, .ldivu 11 11 11 12 11, .ldivu 11 11 11 11 12,
  .lmul 12 11 11 11 11 11, .lmul 11 12 11 11 11 11, .lmul 11 11 12 11 11 11, .lmul 11 11 11 12 11 11, .lmul 11 11 11 11 12 11, .lmul 11 11 11 11 11 12, .maccs 12 11 11 11,
  .maccs 11 12 11 11, .maccs 11 11 12 11, .maccs 11 11 11 12, .maccu 12 11 11 11, .maccu 11 12 11 11, .maccu 11 11 12 11, .maccu 11 11 11 12,
  .crc 12 11 11, .crc 11 12 11, .crc 11 11 12, .crc8 12 11 11 11, .crc8 11 12 11 11, .crc8 11 11 12 11, .crc8 11 11 11 12] : List Instr).all (fun i => !i.wellFormed) = true := by
  decide +kernel

/-! ## Decoding: words written out in spec/95_test_vectors.md section 3.1 from the encoding tables -/

/-- The parcels decode to the instruction, in full length, and it encodes to them. -/
def isWord (e : List Nat × Instr) : Bool :=
  (encode defaultPairs e.2).map BitVec.toNat == e.1 &&
    match decode .b defaultPairs (BitVec.ofNat 16 (e.1.getD 0 0)) (BitVec.ofNat 16 (e.1.getD 1 0)) with
    | .ok (i, n) => i == e.2 && n == 2 * e.1.length
    | .error _ => false
def words1 : List (List Nat × Instr) :=
  [([0x1006], .add 0 1 2), ([0x15BC], .add 11 7 4), ([0x9006], .addi 0 1 2), ([0x969B], .addi 9 10 11),
   ([0x3806], .and 0 1 2), ([0x3DBC], .and 11 7 4), ([0x2EC1], .andnot 0 1), ([0x2F6E], .andnot 11 6),
   ([0xF806, 0x17EC], .ashr 0 1 2), ([0xFDBC, 0x17EC], .ashr 11 7 4), ([0xF806, 0x97EC], .ashri 0 1 2), ([0xFE9B, 0x97EC], .ashri 9 10 11),
   ([0x27F0], .bau 0), ([0x27FB], .bau 11), ([0xFEC1, 0x07EC], .bitrev 0 1), ([0xFF6E, 0x07EC], .bitrev 11 6),
   ([0x27E0], .bla 0), ([0x27EB], .bla 11), ([0xE005], .blacp 5), ([0xF061, 0xE2A0], .blacp 100000),
   ([0x7345], .blat 5), ([0xF00F, 0x7368], .blat 1000), ([0xD405], .blrb 5), ([0xF061, 0xD6A0], .blrb 100000),
   ([0xD005], .blrf 5), ([0xF061, 0xD2A0], .blrf 100000), ([0x7C05], .brbf 0 5), ([0xF00F, 0x7EE8], .brbf 11 1000),
   ([0x7405], .brbt 0 5), ([0xF00F, 0x76E8], .brbt 11 1000), ([0x7705], .brbu 5), ([0xF00F, 0x7728], .brbu 1000),
   ([0x7805], .brff 0 5), ([0xF00F, 0x7AE8], .brff 11 1000), ([0x7005], .brft 0 5), ([0xF00F, 0x72E8], .brft 11 1000)]
theorem test_words_1 : words1.all isWord = true := by decide +kernel
def words2 : List (List Nat × Instr) :=
  [([0x7305], .brfu 5), ([0xF00F, 0x7328], .brfu 1000), ([0x2FE0], .bru 0), ([0x2FEB], .bru 11),
   ([0xFED1, 0x07EC], .byterev 0 1), ([0xFF7E, 0x07EC], .byterev 11 6), ([0xCEC1], .chkct 0 1), ([0xCF6E], .chkct 11 6),
   ([0xCED1], .chkcti 0 1), ([0xCFB9], .chkcti 10 9), ([0x07ED], .clre), ([0x07ED], .clre),
   ([0x87E0], .clrpt 0), ([0x87EB], .clrpt 11), ([0x7B05], .clrsr 5), ([0xF00F, 0x7B28], .clrsr 1000),
   ([0xFEC1, 0x0FEC], .clz 0 1), ([0xFF6E, 0x0FEC], .clz 11 6), ([0xF806, 0xAFEC], .crc 0 1 2), ([0xFDBC, 0xAFEC], .crc 11 7 4),
   ([0xF80B, 0x07E1], .crc8 0 1 2 3), ([0xFDBC, 0x07EA], .crc8 11 10 7 4), ([0x07FC], .dcall), ([0x07FC], .dcall),
   ([0x17EC], .dentsp), ([0x17EC], .dentsp), ([0x3FE0], .dgetreg 0), ([0x3FEB], .dgetreg 11),
   ([0xF806, 0x47EC], .divs 0 1 2), ([0xFDBC, 0x47EC], .divs 11 7 4), ([0xF806, 0x4FEC], .divu 0 1 2), ([0xFDBC, 0x4FEC], .divu 11 7 4),
   ([0x17ED], .drestsp), ([0x17ED], .drestsp), ([0x07FE], .dret), ([0x07FE], .dret)]
theorem test_words_2 : words2.all isWord = true := by decide +kernel
def words3 : List (List Nat × Instr) :=
  [([0x4FE0], .ecallf 0), ([0x4FEB], .ecallf 11), ([0x4FF0], .ecallt 0), ([0x4FFB], .ecallt 11),
   ([0x07E0], .edu 0), ([0x07EB], .edu 11), ([0x2ED1], .eef 0 1), ([0x2F7E], .eef 11 6),
   ([0x26D1], .eet 0 1), ([0x277E], .eet 11 6), ([0x07F0], .eeu 0), ([0x07FB], .eeu 11),
   ([0x96D1], .endin 0 1), ([0x977E], .endin 11 6), ([0x7745], .entsp 5), ([0xF00F, 0x7768], .entsp 1000),
   ([0x3006], .eq 0 1 2), ([0x35BC], .eq 11 7 4), ([0xB006], .eqi 0 1 2), ([0xB69B], .eqi 9 10 11),
   ([0x7385], .extdp 5), ([0xF00F, 0x73A8], .extdp 1000), ([0x7785], .extsp 5), ([0xF00F, 0x77A8], .extsp 1000),
   ([0x17E0], .freer 0), ([0x17EB], .freer 11), ([0x07EF], .freet), ([0x07EF], .freet),
   ([0xFED1, 0x1FEC], .getd 0 1), ([0xFF7E, 0x1FEC], .getd 11 6), ([0x0FFE], .geted), ([0x0FFE], .geted),
   ([0x0FFF], .getet), ([0x0FFF], .getet), ([0x17EE], .getid), ([0x17EE], .getid)]
theorem test_words_3 : words3.all isWord = true := by decide +kernel
def words4 : List (List Nat × Instr) :=
  [([0x17EF], .getkep), ([0x17EF], .getkep), ([0x17FC], .getksp), ([0x17FC], .getksp),
   ([0xFED1, 0x37EC], .getn 0 1), ([0xFF7E, 0x37EC], .getn 11 6), ([0xFED1, 0x17EC], .getps 0 1), ([0xFF7E, 0x17EC], .getps 11 6),
   ([0x86C1], .getr 0 1), ([0x87A9], .getr 10 9), ([0x7F05], .getsr 5), ([0xF00F, 0x7F28], .getsr 1000),
   ([0x06D1], .getst 0 1), ([0x077E], .getst 11 6), ([0x3EC1], .getts 0 1), ([0x3F6E], .getts 11 6),
   ([0xB6C1], .in_ 0 1), ([0xB76E], .in_ 11 6), ([0x86D1], .inct 0 1), ([0x877E], .inct 11 6),
   ([0xF806, 0x97EE], .inpw 0 1 2), ([0xFE9B, 0x97EE], .inpw 9 10 11), ([0xB6D1], .inshr 0 1), ([0xB77E], .inshr 11 6),
   ([0x8ED1], .int 0 1), ([0x8F7E], .int 11 6), ([0x47E0], .kcall 0), ([0x47EB], .kcall 11),
   ([0x73C5], .kcalli 5), ([0xF00F, 0x73E8], .kcalli 1000), ([0x7B85], .kentsp 5), ([0xF00F, 0x7BA8], .kentsp 1000),
   ([0x7BC5], .krestsp 5), ([0xF00F, 0x7BE8], .krestsp 1000), ([0x07FD], .kret), ([0x07FD], .kret)]
theorem test_words_4 : words4.all isWord = true := by decide +kernel
def words5 : List (List Nat × Instr) :=
  [([0xF80B, 0x0714], .ladd 0 1 2 3 4), ([0xFDBC, 0x07B9], .ladd 11 10 7 4 9), ([0x8006], .ld16s 0 1 2), ([0x85BC], .ld16s 11 7 4),
   ([0x8806], .ld8u 0 1 2), ([0x8DBC], .ld8u 11 7 4), ([0xF806, 0x37EC], .lda16b 0 1 2), ([0xFDBC, 0x37EC], .lda16b 11 7 4),
   ([0xF806, 0x2FEC], .lda16f 0 1 2), ([0xFDBC, 0x2FEC], .lda16f 11 7 4), ([0xDC05], .ldapb 5), ([0xF061, 0xDEA0], .ldapb 100000),
   ([0xD805], .ldapf 5), ([0xF061, 0xDAA0], .ldapf 100000), ([0xF806, 0x27EC], .ldawb 0 1 2), ([0xFDBC, 0x27EC], .ldawb 11 7 4),
   ([0xF806, 0xA7EC], .ldawbi 0 1 2), ([0xFE9B, 0xA7EC], .ldawbi 9 10 11), ([0x7F45], .ldawcp 5), ([0xF00F, 0x7F68], .ldawcp 1000),
   ([0x6005], .ldawdp 0 5), ([0xF00F, 0x63E8], .ldawdp 15 1000), ([0xF806, 0x1FEC], .ldawf 0 1 2), ([0xFDBC, 0x1FEC], .ldawf 11 7 4),
   ([0xF806, 0x9FEC], .ldawfi 0 1 2), ([0xFE9B, 0x9FEC], .ldawfi 9 10 11), ([0x6405], .ldawsp 0 5), ([0xF00F, 0x67E8], .ldawsp 15 1000),
   ([0x6805], .ldc 0 5), ([0xF00F, 0x6BE8], .ldc 15 1000), ([0x17FE], .ldet), ([0x17FE], .ldet),
   ([0xF80B, 0x0704], .ldivu 0 1 2 3 4), ([0xFDBC, 0x07A9], .ldivu 11 10 7 4 9), ([0x17FD], .ldsed), ([0x17FD], .ldsed)]
theorem test_words_5 : words5.all isWord = true := by decide +kernel
def words6 : List (List Nat × Instr) :=
  [([0x0FEC], .ldspc), ([0x0FEC], .ldspc), ([0x0FEE], .ldssr), ([0x0FEE], .ldssr),
   ([0x4806], .ldw 0 1 2), ([0x4DBC], .ldw 11 7 4), ([0x6C05], .ldwcp 0 5), ([0xF00F, 0x6FE8], .ldwcp 15 1000),
   ([0xE405], .ldwcpl 5), ([0xF061, 0xE6A0], .ldwcpl 100000), ([0x5805], .ldwdp 0 5), ([0xF00F, 0x5BE8], .ldwdp 15 1000),
   ([0x0806], .ldwi 0 1 2), ([0x0E9B], .ldwi 9 10 11), ([0x5C05], .ldwsp 0 5), ([0xF00F, 0x5FE8], .ldwsp 15 1000),
   ([0xF80B, 0x0111], .lmul 0 1 2 3 4 5), ([0xFDBC, 0x06A4], .lmul 11 10 7 4 9 8), ([0xC006], .lss 0 1 2), ([0xC5BC], .lss 11 7 4),
   ([0xC806], .lsu 0 1 2), ([0xCDBC], .lsu 11 7 4), ([0xF80B, 0x0F04], .lsub 0 1 2 3 4), ([0xFDBC, 0x0FA9], .lsub 11 10 7 4 9),
   ([0xF80B, 0x0FE1], .maccs 0 1 2 3), ([0xFDBC, 0x0FEA], .maccs 11 10 7 4), ([0xF80B, 0x07F1], .maccu 0 1 2 3), ([0xFDBC, 0x07FA], .maccu 11 10 7 4),
   ([0x17F0], .mjoin 0), ([0x17FB], .mjoin 11), ([0xA6C1], .mkmsk 0 1), ([0xA76E], .mkmsk 11 6),
   ([0xA6D1], .mkmski 0 1), ([0xA7B9], .mkmski 10 9), ([0x1FF0], .msync 0), ([0x1FFB], .msync 11)]
theorem test_words_6 : words6.all isWord = true := by decide +kernel
def words7 : List (List Nat × Instr) :=
  [([0xF806, 0x3FEC], .mul 0 1 2), ([0xFDBC, 0x3FEC], .mul 11 7 4), ([0x96C1], .neg 0 1), ([0x976E], .neg 11 6),
   ([0x8EC1], .not 0 1), ([0x8F6E], .not 11 6), ([0x4006], .or 0 1 2), ([0x45BC], .or 11 7 4),
   ([0xAEC4], .out 0 1), ([0xAEEB], .out 11 6), ([0x4EC1], .outct 0 1), ([0x4F6E], .outct 11 6),
   ([0x4ED1], .outcti 0 1), ([0x4FB9], .outcti 10 9), ([0xF806, 0x97ED], .outpw 0 1 2), ([0xFE9B, 0x97ED], .outpw 9 10 11),
   ([0xAED4], .outshr 0 1), ([0xAEFB], .outshr 11 6), ([0x0ED4], .outt 0 1), ([0x0EFB], .outt 11 6),
   ([0xBEC1], .peek 0 1), ([0xBF6E], .peek 11 6), ([0xF806, 0xC7EC], .rems 0 1 2), ([0xFDBC, 0xC7EC], .rems 11 7 4),
   ([0xF806, 0xCFEC], .remu 0 1 2), ([0xFDBC, 0xCFEC], .remu 11 7 4), ([0x77C5], .retsp 5), ([0xF00F, 0x77E8], .retsp 1000),
   ([0xFED1, 0x2FEC], .setc 0 1), ([0xFF7E, 0x2FEC], .setc 11 6), ([0xE805], .setci 0 5), ([0xF00F, 0xEAE8], .setci 11 1000),
   ([0xFED4, 0x0FEC], .setclk 0 1), ([0xFEFB, 0x0FEC], .setclk 11 6), ([0x37F0], .setcp 0), ([0x37FB], .setcp 11)]
theorem test_words_7 : words7.all isWord = true := by decide +kernel
def words8 : List (List Nat × Instr) :=
  [([0x16D4], .setd 0 1), ([0x16FB], .setd 11 6), ([0x37E0], .setdp 0), ([0x37EB], .setdp 11),
   ([0x3FF0], .setev 0), ([0x3FFB], .setev 11), ([0x07FF], .setkep), ([0x07FF], .setkep),
   ([0xFEC4, 0x37EC], .setn 0 1), ([0xFEEB, 0x37EC], .setn 11 6), ([0xFEC4, 0x1FEC], .setps 0 1), ([0xFEEB, 0x1FEC], .setps 11 6),
   ([0xC6C4], .setpsc 0 1), ([0xC6EB], .setpsc 11 6), ([0x3ED4], .setpt 0 1), ([0x3EFB], .setpt 11 6),
   ([0xFEC4, 0x2FEC], .setrdy 0 1), ([0xFEEB, 0x2FEC], .setrdy 11 6), ([0x2FF0], .setsp 0), ([0x2FFB], .setsp 11),
   ([0x7B45], .setsr 5), ([0xF00F, 0x7B68], .setsr 1000), ([0xFED4, 0x27EC], .settw 0 1), ([0xFEFB, 0x27EC], .settw 11 6),
   ([0x47F0], .setv 0), ([0x47FB], .setv 11), ([0x36C1], .sext 0 1), ([0x376E], .sext 11 6),
   ([0x36D1], .sexti 0 1), ([0x37B9], .sexti 10 9), ([0x2006], .shl 0 1 2), ([0x25BC], .shl 11 7 4),
   ([0xA006], .shli 0 1 2), ([0xA69B], .shli 9 10 11), ([0x2806], .shr 0 1 2), ([0x2DBC], .shr 11 7 4)]
theorem test_words_8 : words8.all isWord = true := by decide +kernel
def words9 : List (List Nat × Instr) :=
  [([0xA806], .shri 0 1 2), ([0xAE9B], .shri 9 10 11), ([0x07EE], .ssync), ([0x07EE], .ssync),
   ([0xF806, 0x87EC], .st16 0 1 2), ([0xFDBC, 0x87EC], .st16 11 7 4), ([0xF806, 0x8FEC], .st8 0 1 2), ([0xFDBC, 0x8FEC], .st8 11 7 4),
   ([0x0FFD], .stet), ([0x0FFD], .stet), ([0x0FFC], .stsed), ([0x0FFC], .stsed),
   ([0x0FED], .stspc), ([0x0FED], .stspc), ([0x0FEF], .stssr), ([0x0FEF], .stssr),
   ([0xF806, 0x07EC], .stw 0 1 2), ([0xFDBC, 0x07EC], .stw 11 7 4), ([0x5005], .stwdp 0 5), ([0xF00F, 0x53E8], .stwdp 15 1000),
   ([0x0006], .stwi 0 1 2), ([0x069B], .stwi 9 10 11), ([0x5405], .stwsp 0 5), ([0xF00F, 0x57E8], .stwsp 15 1000),
   ([0x1806], .sub 0 1 2), ([0x1DBC], .sub 11 7 4), ([0x9806], .subi 0 1 2), ([0x9E9B], .subi 9 10 11),
   ([0x87F0], .syncr 0), ([0x87FB], .syncr 11), ([0xBED1], .testct 0 1), ([0xBF7E], .testct 11 6),
   ([0xFEC1, 0x27EC], .testlcl 0 1), ([0xFF6E, 0x27EC], .testlcl 11 6), ([0xC6D1], .testwct 0 1), ([0xC77E], .testwct 11 6)]
theorem test_words_9 : words9.all isWord = true := by decide +kernel
def words10 : List (List Nat × Instr) :=
  [([0x1EC1], .tinitcp 0 1), ([0x1F6E], .tinitcp 11 6), ([0x0EC1], .tinitdp 0 1), ([0x0F6E], .tinitdp 11 6),
   ([0xFEC1, 0x17EC], .tinitlr 0 1), ([0xFF6E, 0x17EC], .tinitlr 11 6), ([0x06C1], .tinitpc 0 1), ([0x076E], .tinitpc 11 6),
   ([0x16C1], .tinitsp 0 1), ([0x176E], .tinitsp 11 6), ([0x1ED1], .tsetmr 0 1), ([0x1F7E], .tsetmr 11 6),
   ([0xB806], .tsetr 0 1 2), ([0xBDBC], .tsetr 11 7 4), ([0x1FE0], .tstart 0), ([0x1FEB], .tstart 11),
   ([0x0FF0], .waitef 0), ([0x0FFB], .waitef 11), ([0x0FE0], .waitet 0), ([0x0FEB], .waitet 11),
   ([0x07EC], .waiteu), ([0x07EC], .waiteu), ([0xF806, 0x0FEC], .xor 0 1 2), ([0xFDBC, 0x0FEC], .xor 11 7 4),
   ([0x46C1], .zext 0 1), ([0x476E], .zext 11 6), ([0x46D1], .zexti 0 1), ([0x47B9], .zexti 10 9)]
theorem test_words_10 : words10.all isWord = true := by decide +kernel

/-- The nine rows of the two-operand field, with a 2r and an r2r instruction (the table of section 3.2). -/
def wordsPairs : List (List Nat × Instr) :=
  [([0x8EC0], .not 0 0), ([0xAEC0], .out 0 0), ([0x8F00], .not 0 4), ([0xAF80], .out 0 4), ([0x8F40], .not 0 8),
   ([0xAF20], .out 0 8), ([0x8F80], .not 4 0), ([0xAF00], .out 4 0), ([0x8FC0], .not 4 4), ([0xAFC0], .out 4 4),
   ([0x8EE0], .not 4 8), ([0xAF60], .out 4 8), ([0x8F20], .not 8 0), ([0xAF40], .out 8 0), ([0x8F60], .not 8 4),
   ([0xAEE0], .out 8 4), ([0x8FA0], .not 8 8), ([0xAFA0], .out 8 8)]
theorem test_words_pairs : wordsPairs.all isWord = true := by decide +kernel
/-- The table of R136 with its entries in the opposite order. -/
def otherPairs : PairTable :=
  #v[⟨30, 1⟩, ⟨29, 1⟩, ⟨28, 1⟩, ⟨27, 1⟩, ⟨31, 0⟩, ⟨30, 0⟩, ⟨29, 0⟩, ⟨28, 0⟩, ⟨27, 0⟩]
/-- The table decides what the field is (R136): NOT r8, r8 has the code that R136's table gives to r0, r0. -/
theorem test_pairs_decide : encode otherPairs (.not 8 8) = [0x8EC0#16] ∧
    (match decode .b otherPairs 0x8EC0#16 0#16 with
     | .ok (i, n) => i == .not 8 8 && n == 2
     | .error _ => false) = true := by decide +kernel

/-- Parcels that are no instruction (R161). -/
def refusedWord (rev : Revision) (w1 w2 : Nat) : Bool :=
  match decode rev defaultPairs (BitVec.ofNat 16 w1) (BitVec.ofNat 16 w2) with
  | .ok _ => false
  | .error _ => true
theorem test_refused_words : [(0xF400, 0), (0xFFFF, 0), (0xF001, 0x4806)].all (fun e => refusedWord .b e.1 e.2) = true := by
  decide +kernel
theorem test_absent_in_revision_A :
    [(0xF80B, 0x07F1), (0xF80B, 0x0FF1)].all (fun e => refusedWord .a e.1 e.2) = true := by decide +kernel
theorem test_table_numbering : decodeTableWord 16 0x4806 = some (.ldw 0 1 2) ∧
    decodeTableWord 32 0xF8060FEC = some (.xor 0 1 2) := by decide +kernel
theorem test_withFetchWord_runs : (match step (State.reset.withFetchWord 32 0xF8060FEC) with
    | .next t => (t.thr 0).pc == 0x10004#32 && t.tid == 0
    | _ => false) = true := by decide +kernel

/-! ## One step of each instruction -/

/-- The state after reset. -/
def base : State := State.reset
/-- Instruction parcels at an address, which thread 0 issues next. -/
def placedAt (s : State) (a : Nat) (ws : List Nat) : State :=
  let s := s.updThr 0 fun t => { t with pc := word a }
  { s with mem := Memory.writeBytes s.mem a (ws.flatMap fun p => [BitVec.ofNat 8 p, BitVec.ofNat 8 (p / 256)])
           agenda := [.issue 0] }
/-- Registers of thread 0 written. -/
def withRegs (s : State) (l : List (Nat × Nat)) : State :=
  s.updThr 0 fun t => l.foldl (fun t p => t.put (regOf p.1) (word p.2)) t
/-- One step from the parcels at an address gives a state of which f holds. -/
def runs (s : State) (a : Nat) (ws : List Nat) (f : State → Bool) : Bool :=
  match step (placedAt s a ws) with
  | .next t => f t
  | _ => false
/-- A register of thread 0 has a value. -/
def regIs (s : State) (i v : Nat) : Bool := (s.thr 0).get (regOf i) == word v
/-- Thread 0 has taken an exception of code c with data, raised at an address. -/
def took (c info a : Nat) (s : State) : Bool :=
  let t := s.thr 0
  t.spc == word a && t.et == word c && t.ed == word info && t.pc == 0x10080#32
/-- A word written in memory. -/
def withWord (s : State) (a v : Nat) : State := { s with mem := Memory.writeN s.mem a 4 v }
/-- A word of memory. -/
def wordOf (s : State) (a : Nat) : Nat := Memory.readN s.mem a 4
def pcIs (s : State) (v : Nat) : Bool := (s.thr 0).pc == word v
def thread0 (s : State) (f : Thread → Bool) : Bool := f (s.thr 0)
def someMemory : State := withRegs (withWord (withWord base 0x10000 0xDDCCBBAA) 0x10004 0x56789234) [(1, 0x10000)]
def someBases : State := withRegs base [(14, 0x1ff00), (13, 0x10100), (12, 0x10200)]
/-- Executing an instruction with registers set gives a state of which f holds. -/
def execs (i : Instr) (l : List (Nat × Nat)) (f : State → Bool) : Bool :=
  match exec i { withRegs base l with pcThis := 0x10000#32 } with
  | .next t => f t
  | _ => false
def execs3 (f : Reg → Reg → Reg → Instr) (x y r : Nat) : Bool := execs (f 0 1 2) [(1, x), (2, y)] (regIs · 0 r)
def traps3 (f : Reg → Reg → Reg → Instr) (x y : Nat) : Bool :=
  execs (f 0 1 2) [(0, 99), (1, x), (2, y)] fun s => regIs s 0 99 && took 7 0 0x10000 s
def execs2 (f : Reg → Reg → Instr) (x r : Nat) : Bool := execs (f 0 1) [(1, x)] (regIs · 0 r)
def execsOn (f : Reg → Reg → Instr) (d x r : Nat) : Bool := execs (f 0 1) [(0, d), (1, x)] (regIs · 0 r)
def execs5 (f : Reg → Reg → Reg → Reg → Reg → Instr) (x y v d e : Nat) : Bool :=
  execs (f 3 4 0 1 2) [(0, x), (1, y), (2, v)] fun s => regIs s 3 d && regIs s 4 e
def accumulates (f : Reg → Reg → Reg → Reg → Instr) (d e x y r q : Nat) : Bool :=
  execs (f 0 1 2 3) [(0, d), (1, e), (2, x), (3, y)] fun s => regIs s 0 r && regIs s 1 q
def paused1 : State := { base.updThr 1 (fun t => { t with inuse := true }) with spaused := [1] }
def withSlaves (sl sp : List Nat) (msyn mjoin : Bool) (mp : List Nat) : State :=
  let s := base.updSync 0 fun y => { y with inuse := true, mstr := 0, slaves := sl, msyn := msyn, mjoin := mjoin }
  let s := sl.foldl (fun s x => s.updThr x fun t => { t with inuse := true, syn := some 0, pc := 0x10000#32 }) s
  { s with spaused := sp, mpaused := mp }
def execsBy (tid : Nat) (i : Instr) (s : State) (f : State → Bool) : Bool :=
  match exec i { s with tid := tid, pcThis := 0x10000#32 } with
  | .next t => f t
  | _ => false
def dtok (n : Nat) : Token := ⟨false, BitVec.ofNat 8 n⟩
def ctok (n : Nat) : Token := ⟨true, BitVec.ofNat 8 n⟩
def twoChans : State :=
  (base.updChan 0 fun c => { c with inuse := true, dest := 0x102#32, destset := true }).updChan 1 fun c =>
    { c with inuse := true, dest := 0x2#32, destset := true }
def withTokens (l : List Token) : State := withRegs (twoChans.updChan 1 fun c => { c with inbuf := l }) [(0, 0x102)]
def portOn (f : Port → Port) : State :=
  withRegs (base.updPort 22 fun p => f (p.switchedOn base.plat 0)) [(0, 0x80000), (1, 0x12345678)]
def withSr (s : State) (v : Nat) : State := s.updThr 0 fun t => { t with sr := SR.ofWord (word v) }
def srIs (s : State) (v : Nat) : Bool := (s.thr 0).sr.toWord == word v
def timerNamed : State := withRegs (base.updTimer 0 fun t => { t with inuse := true }) [(0, 1), (11, 0x10018)]
def withEd (s : State) (v : Nat) : State := s.updThr 0 fun t => { t with ed := word v }
def timerRequest (st : Nat) : State :=
  ((withSr (withEd base 0x99) st).updThr 0 fun t => { t with pc := 0x10040#32 }).updTimer 0 fun t =>
    { t with inuse := true, es := ⟨0, 0x10200#32, 0x55#32, true, .interrupt⟩ }

theorem test_ldw :
    (runs (withRegs someMemory [(2,0)]) 0x10800 [0x4806] (regIs · 0 0xDDCCBBAA)) = true ∧
    (runs (withRegs someMemory [(2,1)]) 0x10800 [0x4806] (regIs · 0 0x56789234)) = true := by decide +kernel
theorem test_ldwi :
    (runs someMemory 0x10800 [0x805] (regIs · 0 0x56789234)) = true := by decide +kernel
theorem test_ld8u :
    (runs (withRegs someMemory [(2,0)]) 0x10800 [0x8806] (regIs · 0 0xAA)) = true ∧
    (runs (withRegs someMemory [(2,3)]) 0x10800 [0x8806] (regIs · 0 0xDD)) = true := by decide +kernel
theorem test_ld16s :
    (runs (withRegs someMemory [(2,0)]) 0x10800 [0x8006] (regIs · 0 0xFFFFBBAA)) = true ∧
    (runs (withRegs someMemory [(2,1)]) 0x10800 [0x8006] (regIs · 0 0xFFFFDDCC)) = true := by decide +kernel
theorem test_st :
    (runs (withRegs someMemory [(0,0x1234),(2,1)]) 0x10800 [0xF806,0x8FEC] (wordOf · 0x10000 == 0xDDCC34AA)) = true ∧
    (runs (withRegs someMemory [(0,0xABCD1234),(2,1)]) 0x10800 [0xF806,0x87EC] (wordOf · 0x10000 == 0x1234BBAA)) = true := by decide +kernel
theorem test_stw :
    (runs (withRegs someMemory [(0,0x01020304),(2,1)]) 0x10800 [0xF806,0x07EC] (wordOf · 0x10004 == 0x01020304)) = true := by decide +kernel
theorem test_stwi_rom :
    (runs (withRegs someMemory [(1,0xFFFFC000)]) 0x10800 [0x0004] (took 5 0xFFFFC000 0x10800)) = true := by decide +kernel
theorem test_ldawf :
    (runs (withRegs someMemory [(2,3)]) 0x10800 [0xF806,0x1FEC] (regIs · 0 0x1000C)) = true := by decide +kernel
theorem test_ldawb :
    (runs (withRegs someMemory [(2,3)]) 0x10800 [0xF806,0x27EC] (regIs · 0 0x0FFF4)) = true := by decide +kernel
theorem test_lda16f :
    (runs (withRegs someMemory [(2,3)]) 0x10800 [0xF806,0x2FEC] (regIs · 0 0x10006)) = true := by decide +kernel
theorem test_lda16b :
    (runs (withRegs someMemory [(2,0x80000001)]) 0x10800 [0xF806,0x37EC] (regIs · 0 0x0FFFE)) = true := by decide +kernel
theorem test_ldawfi :
    (runs someMemory 0x10800 [0xF806,0x9FEC] (regIs · 0 0x10008)) = true := by decide +kernel
theorem test_ldawbi :
    (runs someMemory 0x10800 [0xF806,0xA7EC] (regIs · 0 0x0FFF8)) = true := by decide +kernel
theorem test_ldwsp :
    (runs (withWord someBases 0x1ff08 77) 0x10800 [0x5CC2] (regIs · 3 77)) = true ∧
    (runs someBases 0x10800 [0xF004,0x5CEC] (took 5 0x203B0 0x10800)) = true := by decide +kernel
theorem test_stwsp :
    (runs (withRegs someBases [(15,0x10006)]) 0x10800 [0x57C1] (wordOf · 0x1ff04 == 0x10006)) = true := by decide +kernel
theorem test_ldawsp :
    (runs someBases 0x10800 [0x6784] (regIs · 14 0x1ff10)) = true ∧
    (runs (withRegs someBases [(14,0x1ff02)]) 0x10800 [0x6403] (regIs · 0 0x1ff0e)) = true := by decide +kernel
theorem test_ldwdp :
    (runs (withWord someBases 0x10114 9) 0x10800 [0x5885] (regIs · 2 9)) = true := by decide +kernel
theorem test_stwdp :
    (runs (withRegs someBases [(11,5)]) 0x10800 [0x52FF] (wordOf · 0x101FC == 5)) = true := by decide +kernel
theorem test_ldawdp :
    (runs someBases 0x10800 [0xF001,0x6000] (regIs · 0 0x10200)) = true := by decide +kernel
theorem test_ldc :
    (runs someBases 0x10800 [0xF3FF,0x683F] (regIs · 0 0xffff)) = true := by decide +kernel
theorem test_ldwcp :
    (runs (withWord someBases 0x10200 8) 0x10800 [0x6C40] (regIs · 1 8)) = true := by decide +kernel
theorem test_ldawcp :
    (runs someBases 0x10800 [0x7F43] (regIs · 11 0x1020C)) = true := by decide +kernel
theorem test_ldwcpl :
    (runs (withWord someBases 0x10214 8) 0x10800 [0xE405] (regIs · 11 8)) = true ∧
    (runs (withWord someBases 0x11200 8) 0x10800 [0xF001,0xE400] (regIs · 11 8)) = true := by decide +kernel
theorem test_ldapb :
    (runs someBases 0x10100 [0xDC01] (regIs · 11 0x10100)) = true ∧
    (runs someBases 0x10100 [0xF001,0xDC00] (regIs · 11 0xF904)) = true := by decide +kernel
theorem test_add :
    (execs3 .add 0xFFFFFFFF 1 0) = true ∧
    (execs3 .add 0x7FFFFFFF 1 0x80000000) = true := by decide +kernel
theorem test_addi :
    (execs2 (.addi · · 11) 0xFFFFFFFE 9) = true := by decide +kernel
theorem test_sub :
    (execs3 .sub 0 1 0xFFFFFFFF) = true := by decide +kernel
theorem test_subi :
    (execs2 (.subi · · 11) 5 0xFFFFFFFA) = true := by decide +kernel
theorem test_neg :
    (execs2 .neg 1 0xFFFFFFFF) = true ∧
    (execs2 .neg 0x80000000 0x80000000) = true := by decide +kernel
theorem test_eq :
    (execs3 .eq 7 7 1) = true ∧
    (execs3 .eq 7 8 0) = true := by decide +kernel
theorem test_eqi :
    (execs2 (.eqi · · 11) 11 1) = true ∧
    (execs2 (.eqi · · 11) 12 0) = true := by decide +kernel
theorem test_lss :
    (execs3 .lss 0xFFFFFFFF 0 1) = true ∧
    (execs3 .lss 0x80000000 0x7FFFFFFF 1) = true := by decide +kernel
theorem test_lsu :
    (execs3 .lsu 0xFFFFFFFF 0 0) = true ∧
    (execs3 .lsu 0x80000000 0x7FFFFFFF 0) = true := by decide +kernel
theorem test_and :
    (execs3 .and 0x12345678 0x0F0F0F0F 0x02040608) = true := by decide +kernel
theorem test_or :
    (execs3 .or 0x12345678 0x0F0F0F0F 0x1F3F5F7F) = true := by decide +kernel
theorem test_xor :
    (execs3 .xor 0x12345678 0x0F0F0F0F 0x1D3B5977) = true := by decide +kernel
theorem test_not :
    (execs2 .not 0x12345678 0xEDCBA987) = true := by decide +kernel
theorem test_andnot :
    (execsOn .andnot 0xFFFF 0xFF0 0xF00F) = true := by decide +kernel
theorem test_mul :
    (execs3 .mul 0x12345678 0x9ABCDEF0 0x242D2080) = true := by decide +kernel
theorem test_ashr :
    (execs3 .ashr 0x80000001 0xFFFFFFFF 0xFFFFFFFF) = true ∧
    (execs3 .ashr 0x80000001 1 0xC0000000) = true := by decide +kernel
theorem test_shli :
    (execs2 (.shli · · 0) 5 0) = true ∧
    (execs2 (.shli · · 11) 5 0) = true := by decide +kernel
theorem test_shri :
    (execs2 (.shri · · 8) 0x1234 0x12) = true := by decide +kernel
theorem test_ashri :
    (execs2 (.ashri · · 0) 0x80000000 0xFFFFFFFF) = true := by decide +kernel
theorem test_ladd :
    (execs5 .ladd 0x80000000 0x80000000 1 1 1) = true ∧
    (execs5 .ladd 1 1 2 2 0) = true := by decide +kernel
theorem test_lsub :
    (execs5 .lsub 0 0 1 0xFFFFFFFF 1) = true ∧
    (execs5 .lsub 0x80000000 0x7FFFFFFF 1 0 0) = true := by decide +kernel
theorem test_ldivu :
    (execs5 .ldivu 5 4 3 0xC0000001 1) = true ∧
    (execs5 .ldivu 7 10 5 0x80000000 7) = true := by decide +kernel
theorem test_lmul :
    (execs (.lmul 4 5 0 1 2 3) [(0,0x12345678),(1,0x9ABCDEF0),(2,0x11111111),(3,0x22222222)] fun s => regIs s 4 0x0B00EA4E && regIs s 5 0x576053B3) = true ∧
    (execs (.lmul 4 5 0 1 2 3) [(0,0xffffffff),(1,0xffffffff),(2,0xffffffff),(3,0xffffffff)] fun s => regIs s 4 0xffffffff && regIs s 5 0xffffffff) = true := by decide +kernel
theorem test_maccu :
    (accumulates .maccu 0 0x11223344 0x55667788 0x10000 0x5566 0x88AA3344) = true ∧
    (accumulates .maccu 0 0 0xFFFFFFFF 0xFFFFFFFF 0xFFFFFFFE 1) = true := by decide +kernel
theorem test_maccs :
    (accumulates .maccs 0 0 0x80000000 0x80000000 0x40000000 0) = true ∧
    (accumulates .maccs 0 0 0xFFFFFFFF 2 0xFFFFFFFF 0xFFFFFFFE) = true := by decide +kernel
theorem test_crc :
    (execs (.crc 0 1 2) [(0,0xFFFFFFFF),(1,0x12345678),(2,0xEDB88320)] (regIs · 0 0xCC8F769B)) = true ∧
    (execs (.crc 0 1 2) [(0,1),(1,0),(2,0xEDB88320)] (regIs · 0 0xB8BC6765)) = true := by decide +kernel
theorem test_brft :
    (runs (withRegs base [(0,5)]) 0x10000 [0x7003] (pcIs · 0x10008)) = true ∧
    (runs base 0x10000 [0x7003] (pcIs · 0x10002)) = true := by decide +kernel
theorem test_brff :
    (runs base 0x10000 [0x7840] (pcIs · 0x10002)) = true := by decide +kernel
theorem test_brbt :
    (runs (withRegs base [(0,1)]) 0x10010 [0x7402] (pcIs · 0x1000E)) = true ∧
    (runs (withRegs base [(0,1)]) 0x10100 [0xF001,0x7424] (pcIs · 0x1003C)) = true := by decide +kernel
theorem test_brbf :
    (runs base 0x10100 [0x7EFF] (pcIs · 0x10084)) = true := by decide +kernel
theorem test_brfu :
    (runs base 0x10000 [0x7305] (pcIs · 0x1000c)) = true := by decide +kernel
theorem test_brbu :
    (runs base 0x10000 [0x7701] (pcIs · 0x10000)) = true := by decide +kernel
theorem test_bru :
    (runs (withRegs base [(2,0xffffffff)]) 0x10000 [0x2FE2] (pcIs · 0x10000)) = true := by decide +kernel
theorem test_bau :
    (runs (withRegs base [(11,0x10041)]) 0x10000 [0x27FB] fun s => pcIs s 0x10041 && match step { s with agenda := [.issue 0] } with | .next t => (t.thr 0).spc == 0x10041#32 && (t.thr 0).et == 2#32 && (t.thr 0).ed == 0x10041#32 | _ => false) = true := by decide +kernel
theorem test_blrf :
    (runs base 0x10100 [0xF001,0xD3D0] fun s => pcIs s 0x110A4 && regIs s 15 0x10104) = true := by decide +kernel
theorem test_blrb :
    (runs base 0x10100 [0xD404] fun s => pcIs s 0x100FA && regIs s 15 0x10102) = true := by decide +kernel
theorem test_bla :
    (runs (withRegs base [(3,0x10400)]) 0x10100 [0x27E3] fun s => pcIs s 0x10400 && regIs s 15 0x10102) = true := by decide +kernel
theorem test_blacp :
    (runs (withWord (withRegs base [(12,0x10200)]) 0x1021c 0x10300) 0x10100 [0xE007] fun s => pcIs s 0x10300 && regIs s 15 0x10102) = true := by decide +kernel
theorem test_blat :
    (runs (withWord (withRegs base [(11,0x10200)]) 0x10208 0x10300) 0x10100 [0x7342] fun s => pcIs s 0x10300 && regIs s 15 0x10102) = true := by decide +kernel
theorem test_entsp :
    (runs (withRegs base [(14,0x1ff00),(15,0x10102)]) 0x10000 [0x7744] fun s => wordOf s 0x1ff00 == 0x10102 && regIs s 14 0x1fef0) = true := by decide +kernel
theorem test_retsp :
    (runs (withWord (withRegs base [(14,0x1fef0)]) 0x1ff00 0x10102) 0x10000 [0x77C4] fun s => regIs s 14 0x1ff00 && regIs s 15 0x10102 && pcIs s 0x10102) = true ∧
    (runs (withRegs base [(15,0x10102)]) 0x10000 [0x77C0] (pcIs · 0x10102)) = true := by decide +kernel
theorem test_extsp :
    (runs (withRegs base [(14,0x1ff00)]) 0x10000 [0x7788] (regIs · 14 0x1fee0)) = true := by decide +kernel
theorem test_extdp :
    (runs (withRegs base [(13,0x10100)]) 0x10000 [0x7381] (regIs · 13 0x100fc)) = true := by decide +kernel
theorem test_setsp :
    (runs (withRegs base [(0,6)]) 0x10000 [0x2FF0] (regIs · 14 6)) = true := by decide +kernel
theorem test_setdp :
    (runs (withRegs base [(11,6)]) 0x10000 [0x37EB] (regIs · 13 6)) = true := by decide +kernel
theorem test_setcp :
    (runs (withRegs base [(11,6)]) 0x10000 [0x37FB] (regIs · 12 6)) = true := by decide +kernel
theorem test_getr :
    (runs base 0x10800 [0x86C1] (regIs · 0 1)) = true ∧
    (runs base 0x10800 [0x86C2] fun s => regIs s 0 2 && runs s 0x10800 [0x86C2] (regIs · 0 0x102)) = true := by decide +kernel
theorem test_getr5full :
    (runs { base with locks := base.locks.map fun l => { l with inuse := true } } 0x10800 [0x8701] (regIs · 0 0)) = true := by decide +kernel
theorem test_freer :
    (runs (withRegs (base.updTimer 1 fun t => { t with inuse := true }) [(0,0x101)]) 0x10800 [0x17E0] fun s => !(s.timer 1).inuse) = true := by decide +kernel
theorem test_freerport :
    (runs (withRegs base [(0,0x10000)]) 0x10800 [0x17E0] (took 4 0x10000 0x10800)) = true := by decide +kernel
theorem test_freerthr :
    (runs (withRegs base [(0,4)]) 0x10800 [0x17E0] (took 4 4 0x10800)) = true := by decide +kernel
theorem test_setc :
    (runs (withRegs (base.updTimer 1 fun t => { t with inuse := true }) [(0,0x101),(1,9)]) 0x10800 [0xFED1,0x2FEC] fun s => (s.timer 1).cond == .after) = true := by decide +kernel
theorem test_setcbad :
    (runs (withRegs (base.updTimer 1 fun t => { t with inuse := true }) [(0,0x101),(1,0x11)]) 0x10800 [0xFED1,0x2FEC] (took 4 0x101 0x10800)) = true := by decide +kernel
theorem test_setci :
    (runs (withRegs (base.updPort 0 fun t => { t with inuse := true }) [(1,0x10000)]) 0x10800 [0xF080,0xE84F] fun s => (s.port 0).modes.bufmode == .buffered) = true := by decide +kernel
theorem test_getst :
    (runs (withRegs (base.updSync 0 fun y => { y with inuse := true }) [(0,3)]) 0x10800 [0x06D4] fun s => regIs s 1 0x104 && (s.sync 0).slaves == [1] && (s.sync 0).mstr == 0 && s.spaused == [1]) = true := by decide +kernel
theorem test_getstfull :
    (runs (withRegs { (base.updSync 0 fun y => { y with inuse := true }) with threads := base.threads.map fun t => { t with inuse := true } } [(0,3),(1,5)]) 0x10800 [0x06D4] fun s => regIs s 1 0 && (s.sync 0).slaves == []) = true := by decide +kernel
theorem test_tinitpc :
    (runs (withRegs paused1 [(0,0x104),(1,0x10200)]) 0x10800 [0x06C4] fun s => (s.thr 1).pc == 0x10200#32) = true := by decide +kernel
theorem test_tinitpcbad :
    (runs (withRegs paused1 [(0,0x4),(1,0x10200)]) 0x10800 [0x06C4] (took 4 4 0x10800)) = true := by decide +kernel
theorem test_tsetr :
    (runs (withRegs paused1 [(0,0x104),(1,7)]) 0x10800 [0xB834] fun s => (s.thr 1).get 3 == 7#32 && regIs s 3 0) = true := by decide +kernel
theorem test_tstart :
    (runs (withRegs (paused1.updThr 1 fun t => { t with pc := 0x10200#32 }) [(0,0x104)]) 0x10800 [0x1FE0] fun s => s.runnable 1) = true := by decide +kernel
theorem test_tstartbad :
    (runs (withRegs (paused1.updThr 1 fun t => { t with pc := 0x10201#32 }) [(0,0x104)]) 0x10800 [0x1FE0] fun s => took 2 0x10201 0x10800 s && s.spaused == [1]) = true := by decide +kernel
theorem test_msync :
    (runs (withRegs (withSlaves [1,2] [1,2] false false []) [(0,3)]) 0x10800 [0x1FF0] fun s => s.spaused == [] && s.mpaused == []) = true ∧
    (runs (withRegs (withSlaves [1,2] [1] false false []) [(0,3)]) 0x10800 [0x1FF0] fun s => s.spaused == [1] && s.mpaused == [0] && (s.sync 0).msyn) = true := by decide +kernel
theorem test_ssync :
    (execsBy 2 .ssync (withSlaves [1,2] [1] true false [0]) fun s => s.spaused == [] && s.mpaused == [] && !(s.sync 0).msyn && (s.thr 1).inuse) = true := by decide +kernel
theorem test_ssyncj :
    (execsBy 2 .ssync (withSlaves [1,2] [1] true true [0]) fun s => s.mpaused == [] && !(s.sync 0).msyn && !(s.sync 0).mjoin && !(s.thr 1).inuse && !(s.thr 2).inuse && (s.sync 0).slaves == []) = true := by decide +kernel
theorem test_mjoin :
    (runs (withRegs (withSlaves [1,2] [1,2] false false []) [(0,3)]) 0x10800 [0x17F0] fun s => !(s.thr 1).inuse && !(s.thr 2).inuse && (s.sync 0).slaves == [] && s.runnable 0) = true := by decide +kernel
theorem test_getid :
    (execsBy 2 .getid (withSlaves [1,2] [1] false false []) fun s => (s.thr 2).get 11 == 2#32) = true := by decide +kernel
theorem test_freet :
    (execsBy 2 .freet (withSlaves [1,2] [1] false false []) fun s => !(s.thr 2).inuse) = true := by decide +kernel
theorem test_out :
    (runs (withRegs twoChans [(0,2),(1,0x11223344)]) 0x10800 [0xAEC4] fun s => (s.chan 0).flight == [(0x102#32,dtok 0x11),(0x102#32,dtok 0x22),(0x102#32,dtok 0x33),(0x102#32,dtok 0x44)] && (s.chan 0).route && ((((s.deliver 0).deliver 0).deliver 0).deliver 0 |>.chan 1).inbuf == [dtok 0x11,dtok 0x22,dtok 0x33,dtok 0x44]) = true := by decide +kernel
theorem test_in :
    (runs (withTokens [dtok 0x11,dtok 0x22,dtok 0x33,dtok 0x44]) 0x10800 [0xB6C4] fun s => regIs s 1 0x11223344 && (s.chan 1).inbuf == []) = true ∧
    (runs (withTokens [dtok 0x11,dtok 0x22]) 0x10800 [0xB6C4] fun s => (s.thr 0).sr.waiting && pcIs s 0x10800 && (s.chan 1).waiterIn == some 0) = true := by decide +kernel
theorem test_outt :
    (runs (withRegs twoChans [(0,2),(1,0x1234)]) 0x10800 [0x0ED4] fun s => (s.chan 0).flight == [(0x102#32,dtok 0x34)]) = true := by decide +kernel
theorem test_int :
    (runs (withTokens [dtok 0x34]) 0x10800 [0x8ED4] (regIs · 1 0x34)) = true := by decide +kernel
theorem test_intb :
    (runs (withTokens [ctok 1]) 0x10800 [0x8ED4] (took 4 0x102 0x10800)) = true := by decide +kernel
theorem test_outct :
    (runs (withRegs twoChans [(0,2),(1,1)]) 0x10800 [0x4EC1] fun s => (s.chan 0).flight == [(0x102#32,ctok 1)] && !(s.chan 0).route) = true := by decide +kernel
theorem test_outctb :
    (runs (withRegs twoChans [(0,2),(1,0xe0)]) 0x10800 [0x4EC1] (took 1 2 0x10800)) = true := by decide +kernel
theorem test_outctp :
    (runs (withRegs twoChans [(0,2),(1,0xc0)]) 0x10800 [0x4EC1] (took 4 2 0x10800)) = true := by decide +kernel
theorem test_outcti :
    (runs (withRegs twoChans [(0,2)]) 0x10800 [0x4ED2] fun s => (s.chan 0).flight == [(0x102#32,ctok 2)] && (s.deliver 0 |>.chan 1).inbuf == []) = true := by decide +kernel
theorem test_outcti_without_destination :
    (runs (withRegs (twoChans.updChan 0 fun c => {c with destset := false}) [(0,2)]) 0x10800 [0x4ED2] (took 1 2 0x10800)) = true := by decide +kernel
theorem test_inct :
    (runs (withTokens [ctok 5]) 0x10800 [0x86D4] (regIs · 1 5)) = true := by decide +kernel
theorem test_inctb :
    (runs (withTokens [dtok 5]) 0x10800 [0x86D4] (took 4 0x102 0x10800)) = true := by decide +kernel
theorem test_chkct :
    (runs (withRegs (withTokens [ctok 1]) [(1,1)]) 0x10800 [0xCEC1] fun s => (s.chan 1).inbuf == [] && regIs s 1 1) = true := by decide +kernel
theorem test_chkctb :
    (runs (withRegs (withTokens [ctok 3]) [(1,1)]) 0x10800 [0xCEC1] (took 4 0x102 0x10800)) = true ∧
    (runs (withRegs (withTokens [dtok 1]) [(1,1)]) 0x10800 [0xCEC1] (took 4 0x102 0x10800)) = true := by decide +kernel
theorem test_chkcti :
    (runs (withTokens []) 0x10800 [0xCED1] fun s => (s.thr 0).sr.waiting) = true := by decide +kernel
theorem test_testct :
    (runs (withTokens [ctok 1]) 0x10800 [0xBED4] (regIs · 1 1)) = true ∧
    (runs (withRegs (withTokens [dtok 1]) [(1,4)]) 0x10800 [0xBED4] (regIs · 1 0)) = true := by decide +kernel
theorem test_testlcl :
    (runs (withRegs twoChans [(0,2)]) 0x10800 [0xFEC4,0x27EC] (regIs · 1 1)) = true ∧
    (runs (withRegs (twoChans.updChan 0 fun c => {c with dest := 0x10102#32}) [(0,2),(1,4)]) 0x10800 [0xFEC4,0x27EC] (regIs · 1 0)) = true := by decide +kernel
theorem test_setd :
    (runs (withRegs twoChans [(0,2),(1,0x202)]) 0x10800 [0x16D4] fun s => (s.chan 0).dest == 0x202#32) = true := by decide +kernel
theorem test_getd :
    (runs (withRegs twoChans [(0,2)]) 0x10800 [0xFED4,0x1FEC] (regIs · 1 0x102)) = true := by decide +kernel
theorem test_freerbuf :
    (runs (withTokens [dtok 1]) 0x10800 [0x17E0] (took 4 0x102 0x10800)) = true := by decide +kernel
theorem test_freerroute :
    (runs (withRegs (twoChans.updChan 0 fun c => {c with route := true}) [(0,2)]) 0x10800 [0x17E0] (took 4 2 0x10800)) = true := by decide +kernel
theorem test_timer_in :
    (runs (withRegs { (base.updTimer 0 fun t => {t with inuse := true}) with reftime := 0x1000#32 } [(0,1)]) 0x10800 [0xB6C4] (regIs · 1 0x1000)) = true ∧
    (runs (withRegs { (base.updTimer 0 fun t => {t with inuse := true, cond := .after, data := 0x2000#32}) with reftime := 0x1000#32 } [(0,1)]) 0x10800 [0xB6C4] fun s => (s.thr 0).sr.waiting) = true := by decide +kernel
theorem test_setclk :
    (runs (withRegs ((portOn id).updClk 1 fun c => {c with inuse := true}) [(1,0x106)]) 0x10800 [0xFED4,0x0FEC] fun s => (s.port 22).clk == 0x106#32) = true := by decide +kernel
theorem test_setd_clock :
    (runs (withRegs (base.updClk 1 fun c => {c with inuse := true}) [(0,0x106),(1,0x1234)]) 0x10800 [0x16D4] fun s => (s.clk 1).div == 0x34#8) = true := by decide +kernel
theorem test_port_out :
    (runs (portOn id) 0x10800 [0xAEC4] fun s => (s.port 22).transfer == 0x78#32) = true := by decide +kernel
theorem test_port_in :
    (runs (portOn fun p => {p with transfer := 0xA5#32, trfull := true}) 0x10800 [0xB6C4] (regIs · 1 0xA5)) = true := by decide +kernel
theorem test_outshr :
    (runs (portOn id) 0x10800 [0xAED4] fun s => regIs s 1 0x123456 && (s.port 22).transfer == 0x78#32) = true := by decide +kernel
theorem test_inshr :
    (runs (portOn fun p => {p with transfer := 0xAB#32, trfull := true}) 0x10800 [0xB6D4] (regIs · 1 0xAB123456)) = true := by decide +kernel
theorem test_peek :
    (runs (portOn fun p => {p with ext := 0x3c#32}) 0x10800 [0xBEC4] (regIs · 1 0x3c)) = true := by decide +kernel
theorem test_setpt :
    (runs (withRegs (portOn id) [(1,0x12345)]) 0x10800 [0x3ED4] fun s => (s.port 22).porttime == 0x2345#16 && (s.port 22).porttimeset) = true := by decide +kernel
theorem test_clrpt :
    (runs (portOn fun p => {p with porttimeset := true}) 0x10800 [0x87E0] fun s => !(s.port 22).porttimeset) = true := by decide +kernel
theorem test_getts :
    (runs (portOn fun p => {p with timestamp := 0x102#16}) 0x10800 [0x3EC4] (regIs · 1 0x102)) = true := by decide +kernel
theorem test_in_of_unused_port :
    (runs (withRegs base [(0,0x80000)]) 0x10800 [0xB6C4] (took 4 0x80000 0x10800)) = true := by decide +kernel
theorem test_endin :
    (runs (portOn fun p => {p with modes := {p.modes with bufmode := .buffered}, trwidth := 32, trfull := true, sfill := 5}) 0x10800 [0x96D4] (regIs · 1 37)) = true := by decide +kernel
theorem test_getsr :
    (runs (withSr base 0x30) 0x10800 [0x7F20] (regIs · 11 0x20)) = true ∧
    (runs (withSr base 0x30) 0x10800 [0xF004,0x7F00] (regIs · 11 0)) = true := by decide +kernel
theorem test_setsr :
    (runs base 0x10800 [0x7B41] (srIs · 1)) = true ∧
    (runs (withSr base 0x10) 0x10800 [0x7B43] (srIs · 0x13)) = true := by decide +kernel
theorem test_clrsr :
    (runs (withSr base 0x13) 0x10800 [0x7B01] (srIs · 0x12)) = true := by decide +kernel
theorem test_setv :
    (runs timerNamed 0x10800 [0x47F0] fun s => (s.timer 0).es.v == 0x10018#32) = true := by decide +kernel
theorem test_setev :
    (runs timerNamed 0x10800 [0x3FF0] fun s => (s.timer 0).es.ev == 0x10018#32) = true := by decide +kernel
theorem test_eet :
    (runs (withRegs timerNamed [(1,7)]) 0x10800 [0x26D4] fun s => (s.timer 0).es.enb) = true := by decide +kernel
theorem test_eef :
    (runs (withRegs timerNamed [(1,7)]) 0x10800 [0x2ED4] fun s => !(s.timer 0).es.enb) = true := by decide +kernel
theorem test_eeu :
    (runs timerNamed 0x10800 [0x07F0] fun s => (s.timer 0).es.enb && runs s 0x10800 [0x07E0] fun s => !(s.timer 0).es.enb) = true := by decide +kernel
theorem test_clre :
    (runs (withSr (timerNamed.updTimer 0 fun t => {t with es := {t.es with enb := true}}) 5) 0x10800 [0x07ED] fun s => srIs s 0 && !(s.timer 0).es.enb) = true := by decide +kernel
theorem test_waiteu :
    (runs base 0x10800 [0x07EC] fun s => srIs s 0x41 && pcIs s 0x10800) = true := by decide +kernel
theorem test_waitet :
    (runs base 0x10800 [0x0FE0] fun s => srIs s 0 && pcIs s (0x10800+2)) = true := by decide +kernel
theorem test_waitef :
    (runs base 0x10800 [0x0FF0] (srIs · 0x41)) = true := by decide +kernel
theorem test_ecallt :
    (runs (withRegs base [(0,1)]) 0x10800 [0x4FF0] (took 8 0 0x10800)) = true ∧
    (runs base 0x10800 [0x4FF0] fun s => pcIs s (0x10800+2)) = true := by decide +kernel
theorem test_ecallf :
    (runs base 0x10800 [0x4FE0] (took 8 0 0x10800)) = true := by decide +kernel
theorem test_kentsp :
    (runs (withRegs base [(14,0x1F000)]) 0x10800 [0x7B84] fun s => wordOf s 0x1ffc0 == 0x1f000 && regIs s 14 0x1ffb0) = true := by decide +kernel
theorem test_krestsp :
    (runs (withWord (withRegs base [(14,0x1FFB0)]) 0x1ffc0 0x1f000) 0x10800 [0x7BC4] fun s => (s.thr 0).ksp == 0x1ffc0#32 && regIs s 14 0x1f000) = true := by decide +kernel
theorem test_stspc :
    (runs ((withRegs base [(14,0x1FF00)]).updThr 0 fun t => {t with spc := 0x10006#32}) 0x10800 [0x0FED] (wordOf · 0x1ff04 == 0x10006)) = true := by decide +kernel
theorem test_ldssr :
    (runs (withWord (withRegs base [(14,0x1FF00)]) 0x1ff08 3) 0x10800 [0x0FEE] fun s => (s.thr 0).ssr == 3#32) = true := by decide +kernel
theorem test_stsed :
    (runs ((withRegs base [(14,0x1FF00)]).updThr 0 fun t => {t with sed := 6#32}) 0x10800 [0x0FFC] (wordOf · 0x1ff0C == 6)) = true := by decide +kernel
theorem test_ldsed :
    (runs (withWord (withRegs base [(14,0x1FF00)]) 0x1ff0c 3) 0x10800 [0x17FD] fun s => (s.thr 0).sed == 3#32) = true := by decide +kernel
theorem test_stet :
    (runs ((withRegs base [(14,0x1FF00)]).updThr 0 fun t => {t with et := 6#32}) 0x10800 [0x0FFD] (wordOf · 0x1ff10 == 6)) = true := by decide +kernel
theorem test_ldet :
    (runs (withWord (withRegs base [(14,0x1FF00)]) 0x1ff10 3) 0x10800 [0x17FE] fun s => (s.thr 0).et == 3#32) = true := by decide +kernel
theorem test_getkep :
    (runs base 0x10800 [0x17EF] (regIs · 11 0x10080)) = true := by decide +kernel
theorem test_getksp :
    (runs base 0x10800 [0x17FC] (regIs · 11 0x1ffc0)) = true := by decide +kernel
theorem test_setkep :
    (runs (withRegs base [(11,0x10100)]) 0x10800 [0x07FF] fun s => (s.thr 0).kep == 0x10100#32) = true := by decide +kernel
theorem test_dcall :
    (runs (withSr base 1) 0x10020 [0x07FC] fun s => s.dbg.dspc == 0x10022#32 && s.dbg.dssr == 1#32 && pcIs s 0xFFFFC000 && srIs s 0x18 && s.dbg.indbg && s.dbg.dtype == 2#32) = true := by decide +kernel
theorem test_dret :
    (runs { base with dbg := { base.dbg with indbg := true, dspc := 0x10022#32, dssr := 1#32 } } 0x10800 [0x07FE] fun s => pcIs s 0x10022 && srIs s 1 && !s.dbg.indbg) = true := by decide +kernel
theorem test_dretb :
    (runs base 0x10800 [0x07FE] (took 3 0 0x10800)) = true := by decide +kernel
theorem test_dentspb :
    (runs base 0x10800 [0x17EC] (took 3 0 0x10800)) = true := by decide +kernel
theorem test_drestspb :
    (runs base 0x10800 [0x17ED] (took 3 0 0x10800)) = true := by decide +kernel
theorem test_dgetregb :
    (runs base 0x10800 [0x3FE0] (took 3 0 0x10800)) = true := by decide +kernel
theorem test_getps :
    (runs (withRegs base [(0,0x50B)]) 0x10800 [0xFED4,0x17EC] (took 6 0x50B 0x10800)) = true := by decide +kernel
theorem test_setps_illegal :
    (runs (withRegs base [(0,0x1050B)]) 0x10800 [0xFEC4,0x1FEC] (took 6 0x1050B 0x10800)) = true := by decide +kernel
theorem test_setps_rambase :
    (runs (withRegs base [(0,0x00B),(1,0x10000)]) 0x10800 [0xFEC4,0x1FEC] fun s => s.dbg.rambase == 0x10000#32) = true := by decide +kernel
theorem test_getps_rambase :
    (runs (withRegs base [(0,0xB)]) 0x10800 [0xFED4,0x17EC] (regIs · 1 0x10000)) = true := by decide +kernel
theorem test_ecall :
    (runs (withRegs (withSr (withEd base 0xAA) 3) [(0,1)]) 0x10010 [0x4FF0] fun s => took 8 0 0x10010 s && thread0 s fun t => t.ssr == 3 && t.sed == 0xAA && t.sr.toWord == 0x10) = true ∧
    (runs (withRegs (withSr (withEd base 0xAA) 0x13) [(0,1)]) 0x10010 [0x4FF0] fun s => took 8 0 0x10010 s && thread0 s fun t => t.ssr == 0x13 && t.sr.toWord == 0x30) = true := by decide +kernel
theorem test_kcall :
    (runs (withRegs (withSr base 3) [(0,7)]) 0x10010 [0x47E0] fun s => thread0 s fun t => t.spc == 0x10010 && t.ssr == 3 && t.et == 15 && t.ed == 7 && t.pc == 0x100C0 && t.sr.toWord == 0x10) = true := by decide +kernel
theorem test_kcalli :
    (runs base 0x10010 [0xF001,0x73E4] fun s => thread0 s fun t => t.spc == 0x10010 && t.ed == 100) = true := by decide +kernel
theorem test_kret :
    (runs (base.updThr 0 fun t => {t with spc := 0x10012, ssr := 3, sed := 0xAA, et := 15}) 0x10800 [0x07FD] fun s => thread0 s fun t => t.pc == 0x10012 && t.sr.toWord == 3 && t.ed == 0xAA && t.et == 15) = true := by decide +kernel
theorem test_illegal_instruction :
    (runs base 0x10000 [0xF400] fun s => took 3 0 0x10000 s) = true := by decide +kernel
theorem test_illegal_pc :
    (match step {(base.updThr 0 fun t => {t with pc := 0x20000}) with agenda := [.issue 0]} with | .next s => took 2 0x20000 0x20000 s | _ => false) = true := by decide +kernel
theorem test_illegal_pc_of_prefix :
    (runs base 0x1FFFE [0xF001] (took 2 0x1FFFE 0x1FFFE)) = true := by decide +kernel
theorem test_interrupt :
    (match step {timerRequest 2 with agenda := [.interrupt 0 (.timer 0)]} with | .next s => thread0 s fun t => t.spc == 0x10040 && t.ssr == 2 && t.sed == 0x99 && t.ed == 0x55 && t.pc == 0x10200 && t.sr.toWord == 0x18 | _ => false) = true ∧
    (match step (timerRequest 0x12) with | .next s => thread0 s fun t => t.ssr == 0x12 && t.sr.toWord == 0x38 | _ => false) = true := by decide +kernel
theorem test_event :
    (match step (((timerRequest 0x41).updTimer 0 fun t => {t with es := {t.es with iemode := .event}})) with | .next s => thread0 s fun t => t.pc == 0x10200 && t.ed == 0x55 && t.sr.toWord == 0 && t.spc == 0 | _ => false) = true ∧
    (match step (((timerRequest 0x45).updTimer 0 fun t => {t with es := {t.es with iemode := .event}})) with | .next s => thread0 s fun t => t.sr.toWord == 0 | _ => false) = true := by decide +kernel
theorem test_shl :
    (execs3 .shl 0x80000001 32 0) = true ∧
    (execs3 .shl 0x80000001 31 0x80000000) = true := by decide +kernel
theorem test_shr :
    (execs3 .shr 0x80000001 33 0) = true ∧
    (execs3 .shr 0x80000001 1 0x40000000) = true := by decide +kernel
theorem test_divs :
    (traps3 .divs 0x80000000 0xFFFFFFFF) = true ∧
    (execs3 .divs 0xFFFFFFFB 3 0xFFFFFFFF) = true := by decide +kernel
theorem test_rems :
    (traps3 .rems 0x80000000 0xFFFFFFFF) = true ∧
    (execs3 .rems 0xFFFFFFFB 3 0xFFFFFFFE) = true := by decide +kernel
theorem test_divu :
    (traps3 .divu 7 0) = true ∧
    (execs3 .divu 0x80000000 0xFFFFFFFF 0) = true := by decide +kernel
theorem test_remu :
    (traps3 .remu 7 0) = true ∧
    (execs3 .remu 0xFFFFFFFF 10 5) = true := by decide +kernel
theorem test_sext :
    (execsOn .sext 0x12345678 0 0x12345678) = true ∧
    (execsOn .sext 0x12380 8 0xFFFFFF80) = true := by decide +kernel
theorem test_zext :
    (execsOn .zext 0x12345678 0 0x12345678) = true ∧
    (execsOn .zext 0xFFFFFFFF 4 0xF) = true := by decide +kernel
theorem test_mkmsk :
    (execs2 .mkmsk 33 0xFFFFFFFF) = true ∧
    (execs2 .mkmsk 12 0xFFF) = true := by decide +kernel
theorem test_bitrev :
    (execs2 .bitrev 0x12345678 0x1E6A2C48) = true := by decide +kernel
theorem test_byterev :
    (execs2 .byterev 0x12345678 0x78563412) = true := by decide +kernel
theorem test_clz :
    (execs2 .clz 0 32) = true ∧
    (execs2 .clz 0x00010000 15) = true := by decide +kernel
theorem test_ldapf :
    (runs someBases 0x10100 [0xF001,0xD800] (regIs · 11 0x10904)) = true ∧
    (runs someBases 0x10100 [0xD804] (regIs · 11 0x1010A)) = true := by decide +kernel
theorem test_testwct :
    (runs (withTokens [dtok 1,dtok 2]) 0x10800 [0xC6D4] fun s => (s.thr 0).sr.waiting) = true ∧
    (runs (withTokens [dtok 1,dtok 2,dtok 3,ctok 1]) 0x10800 [0xC6D4] (regIs · 1 4)) = true := by decide +kernel
theorem test_ldivu_traps :
    (execs (.ldivu 3 4 0 1 2) [(0,1),(1,4),(2,4)] (took 7 0 0x10000)) = true := by decide +kernel

/-! ## Witnesses: states and operands that meet the hypotheses of each statement, clause by clause, at the ends of the
ranges where the hypotheses have ranges -/

/-- The outcome is a next state. -/
def answers (o : Result) : Bool := match o with | .next _ => true | _ => false

theorem exists_of_answers {o : Result} (h : answers o = true) : ∃ t, o = .next t := by
  cases o with
  | next t => exact ⟨t, rfl⟩
  | fault f => simp [answers] at h
  | refused r => simp [answers] at h

theorem test_witness_DecodeEncode : ∀ i ∈ ([.ldw 11 11 11, .brfu 63#16, .brfu 64#16, .ldapf 1048575#20, .lmul 0 1 2 3 4 11] : List Instr),
    pairsOk defaultPairs = true ∧ pairsOk otherPairs = true ∧ i.wellFormed = true ∧ inRevision .a i = true := by
  decide +kernel
theorem test_witness_DecodedIsWellFormed : decode .b defaultPairs 0x4806#16 0#16 = .ok (.ldw 0 1 2, 2) ∧
    decode .a defaultPairs 0xF806#16 0x0FEC#16 = .ok (.xor 0 1 2, 4) := ⟨rfl, rfl⟩

def fetchLdw : State := placedAt (withRegs base [(1, 0x10000), (2, 0)]) 0x1FFFE [0x4806]
def fetchXor : State := placedAt base 0x1FFFC [0xF806, 0x0FEC]
def fetchable (s : State) (w1 w2 : Parcel) : Prop :=
  s.runnable 0 = true ∧ ((0 : Nat) = 0 → s.debugDue = false) ∧ (∀ e ∈ s.stale, e.thread ≠ 0) ∧
  legalPc s.plat (s.thr 0).pc = true ∧
  (needsSecond w1.toNat = true → memValid s.plat ((s.thr 0).pc + 2#32).toNat = true) ∧
  Memory.parcel s.mem (s.thr 0).pc.toNat = w1 ∧ Memory.parcel s.mem ((s.thr 0).pc + 2#32).toNat = w2
theorem test_witness_StepRunsDecoded : fetchable fetchLdw 0x4806#16 0#16 ∧ fetchable fetchXor 0xF806#16 0x0FEC#16 ∧
    fetchLdw.agenda = [.issue 0] := by unfold fetchable; decide +kernel
def fetchAuto : State := { fetchLdw with agenda := [] }
theorem test_witness_StepRunsDecoded_schedule : fetchable fetchAuto 0x4806#16 0#16 ∧ fetchAuto.agenda = [] ∧
    fetchAuto.turn = 0 ∧ fetchAuto.nextThread = some 0 ∧
    ∀ q ∈ fetchAuto.allRefs, fetchAuto.interruptOpen 0 q = false ∧ fetchAuto.eventOpen 0 q = false := by
  unfold fetchable; decide +kernel

def issueBase (pc : Nat) (ws : List Nat) : State := placedAt base pc ws
def issuing (s : State) : Prop :=
  s.agenda = [.issue 0] ∧ s.runnable 0 = true ∧ ((0 : Nat) = 0 → s.debugDue = false) ∧ ∀ e ∈ s.stale, e.thread ≠ 0
theorem test_witness_IssueTraps :
    issuing (issueBase 0x10001 []) ∧ legalPc defaultPlatform 0x10001#32 = false ∧
    issuing (issueBase 0x20000 []) ∧ legalPc defaultPlatform 0x20000#32 = false ∧
    issuing (issueBase 0x1FFFE [0xF001]) ∧ legalPc defaultPlatform 0x1FFFE#32 = true ∧
    Memory.parcel (issueBase 0x1FFFE [0xF001]).mem 0x1FFFE = 0xF001#16 ∧ needsSecond 0xF001 = true ∧
    memValid defaultPlatform 0x20000 = false ∧
    issuing (issueBase 0x10000 [0xF400]) ∧ legalPc defaultPlatform 0x10000#32 = true ∧
    Memory.parcel (issueBase 0x10000 [0xF400]).mem 0x10000 = 0xF400#16 ∧ needsSecond 0xF400 = false := by
  unfold issuing; decide +kernel
theorem test_witness_IssueTraps_undecodable (i : Instr) (len : Nat) : decode .b defaultPairs 0xF400#16 0#16 ≠ .ok (i, len) := by
  have h : (match decode .b defaultPairs 0xF400#16 0#16 with | .ok _ => true | .error _ => false) = false := by decide +kernel
  intro e
  rw [e] at h
  cases h

theorem test_witness_StepKeepsInv : base.inv = true ∧ ∃ t, step base = .next t :=
  ⟨by decide +kernel, exists_of_answers (by decide +kernel)⟩
theorem test_witness_StepKeepsMachine : ∃ t, step base = .next t := exists_of_answers (by decide +kernel)

/-- Every base register and ksp at one address, every index 0. -/
def based (a : Nat) : State :=
  (withRegs base [(1, a), (11, a), (12, a), (13, a), (14, a)]).updThr 0 fun t => { t with ksp := word a }
/-- The addresses the loads and stores of words use on `based`, with immediates of 0. -/
def wordAddresses (s : State) : List Nat := List.map BitVec.toNat
  [s.x sp + (0#16).setWidth 32 * 4#32, s.x dp + (0#16).setWidth 32 * 4#32, s.x cp + (0#16).setWidth 32 * 4#32,
   s.x cp + (0#20).setWidth 32 * 4#32, s.x 1 + word (0 : Us).val * 4#32, s.x 1 + s.x 2 * 4#32,
   s.x r11 + (0#16).setWidth 32 * 4#32]
def halfAddress (s : State) : Nat := (s.x 1 + s.x 2 * 2#32).toNat
def byteAddress (s : State) : Nat := (s.x 1 + s.x 2).toNat

theorem test_witness_Loads : ∀ a ∈ [0x10000, 0x1FFFC, 0xFFFFC000, 0xFFFFDFFC], (∀ p ∈ wordAddresses (based a),
    p % 4 = 0 ∧ memValid (based a).plat p = true) ∧ halfAddress (based (a + 2)) % 2 = 0 ∧
    memValid (based a).plat (halfAddress (based (a + 2))) = true ∧
    memValid (based a).plat (byteAddress (based (a + 3))) = true := by decide +kernel
theorem test_witness_Stores : ∀ a ∈ [0x10000, 0x1FFFC], Memory.wf (based a).mem = true ∧ (∀ p ∈ wordAddresses (based a),
    p % 4 = 0 ∧ memValid (based a).plat p = true ∧ inRom (based a).plat p = false) ∧
    halfAddress (based (a + 2)) % 2 = 0 ∧ memValid (based a).plat (halfAddress (based (a + 2))) = true ∧
    inRom (based a).plat (halfAddress (based (a + 2))) = false ∧
    memValid (based a).plat (byteAddress (based (a + 3))) = true ∧
    inRom (based a).plat (byteAddress (based (a + 3))) = false := by decide +kernel
theorem test_witness_AccessTraps :
    (∀ a ∈ [0x10001, 0x20000, 0xFFFC], ∀ p ∈ wordAddresses (based a) ++ [((based a).x sp).toNat, (based a).cur.ksp.toNat],
      p % 4 ≠ 0 ∨ memValid defaultPlatform p = false) ∧
    halfAddress (based 0x10001) % 2 ≠ 0 ∧ memValid defaultPlatform (byteAddress (based 0x20000)) = false ∧
    (∀ k ∈ [4, 8, 12, 16], memValid defaultPlatform ((based 0x1FFFC).x sp + word k).toNat = false) ∧
    (1#16 ≠ 0#16 ∧ memValid defaultPlatform ((based 0x1FFFC).x sp + (1#16).setWidth 32 * 4#32).toNat = false) ∧
    (∀ p ∈ wordAddresses (based 0xFFFFC000) ++ [((based 0xFFFFC000).x sp).toNat, (based 0xFFFFC000).cur.ksp.toNat],
      inRom defaultPlatform p = true) := by decide +kernel
theorem test_witness_Division : ((withRegs base [(2, 1)]).x 2).toNat ≠ 0 ∧
    ¬(((withRegs base [(2, 1)]).x 1).toInt = -2147483648 ∧ ((withRegs base [(2, 1)]).x 2).toInt = -1) ∧
    ((withRegs base [(1, 0x80000000), (2, 1)]).x 2).toNat ≠ 0 ∧
    ¬(((withRegs base [(1, 0x80000000), (2, 1)]).x 1).toInt = -2147483648 ∧
      ((withRegs base [(1, 0x80000000), (2, 1)]).x 2).toInt = -1) := by decide +kernel
theorem test_witness_ArithmeticTraps : (base.x 2).toNat = 0 ∧
    ((withRegs base [(1, 0x80000000), (2, 0xFFFFFFFF)]).x 1).toInt = -2147483648 ∧
    ((withRegs base [(1, 0x80000000), (2, 0xFFFFFFFF)]).x 2).toInt = -1 ∧
    ((withRegs base [(2, 7), (3, 7)]).x 2).toNat ≤ ((withRegs base [(2, 7), (3, 7)]).x 3).toNat := by decide +kernel
theorem test_witness_BranchesAndCalls : ∀ a ∈ [0x10000, 0x1FFFC],
    ((based a).x cp + (0#20).setWidth 32 * 4#32).toNat % 4 = 0 ∧
    memValid defaultPlatform ((based a).x cp + (0#20).setWidth 32 * 4#32).toNat = true ∧
    ((based a).x r11 + (0#16).setWidth 32 * 4#32).toNat % 4 = 0 ∧
    memValid defaultPlatform ((based a).x r11 + (0#16).setWidth 32 * 4#32).toNat = true := by decide +kernel
theorem test_witness_StackFrames : (1#16 ≠ 0#16) ∧ Memory.wf (based 0x1FFFC).mem = true ∧
    ((based 0x1FFFC).x sp).toNat % 4 = 0 ∧ memValid defaultPlatform ((based 0x1FFFC).x sp).toNat = true ∧
    inRom defaultPlatform ((based 0x1FFFC).x sp).toNat = false ∧
    ((based 0x1FFF8).x sp + (1#16).setWidth 32 * 4#32).toNat % 4 = 0 ∧
    memValid defaultPlatform ((based 0x1FFF8).x sp + (1#16).setWidth 32 * 4#32).toNat = true := by decide +kernel

/-- Every resource in use. -/
def full : State := { base with
  threads := base.threads.map fun t => { t with inuse := true }
  timers := base.timers.map fun x => { x with inuse := true }
  chans := base.chans.map fun c => { c with inuse := true, destset := true, dest := 0x00000002#32 }
  syncs := base.syncs.map fun y => { y with inuse := true }
  locks := base.locks.map fun l => { l with inuse := true }
  clks := base.clks.map fun c => { c with inuse := true }
  ports := base.ports.map fun p => { p with inuse := true } }
/-- `full`, with an identifier in r0 and a value in r1. -/
def named (r v : Nat) : State := withRegs full [(0, r), (1, v)]

theorem test_witness_Getr :
    (0 < base.timers.length ∧ (base.timer 0).inuse = false ∧ ∀ j < 0, (base.timer j).inuse = true) ∧
    (let s := full.updTimer 9 fun x => { x with inuse := false }
     9 < s.timers.length ∧ (s.timer 9).inuse = false ∧ ∀ j < 9, (s.timer j).inuse = true) ∧
    (let s := full.updChan 31 fun x => { x with inuse := false }
     31 < s.chans.length ∧ (s.chan 31).inuse = false ∧ ∀ j < 31, (s.chan j).inuse = true) ∧
    (let s := full.updSync 6 fun x => { x with inuse := false }
     6 < s.syncs.length ∧ (s.sync 6).inuse = false ∧ ∀ j < 6, (s.sync j).inuse = true) ∧
    (let s := full.updThr 7 fun x => { x with inuse := false }
     7 < s.threads.length ∧ (s.thr 7).inuse = false ∧ (∀ j < 7, (s.thr j).inuse = true) ∧ s.cur.inuse = true) ∧
    (let s := full.updLock 3 fun x => { x with inuse := false }
     3 < s.locks.length ∧ (s.lock 3).inuse = false ∧ ∀ j < 3, (s.lock j).inuse = true) ∧
    (∀ k < full.timers.length, (full.timer k).inuse = true) ∧ (∀ k < full.chans.length, (full.chan k).inuse = true) ∧
    (∀ k < full.syncs.length, (full.sync k).inuse = true) ∧ (∀ k < full.threads.length, (full.thr k).inuse = true) ∧
    (∀ k < full.locks.length, (full.lock k).inuse = true) ∧ (0 : Us).val = 0 ∧ 5 < (6 : Us).val ∧ 5 < (11 : Us).val := by
  decide +kernel

/-- A channel end of `named`, changed. -/
def namedChan (f : Chanend → Chanend) : State := (named 0x1F02 0).updChan 31 f
def chanBusy (c : Chanend) : Prop :=
  c.route = true ∨ c.inmsg = true ∨ c.inbuf ≠ [] ∨ c.waiterIn ≠ none ∨ c.waiterOut ≠ none
def chanIdle (s : State) : Prop :=
  s.live (s.x 0) = some (.chan 31) ∧ (s.chan 31).route = false ∧ (s.chan 31).inmsg = false ∧ (s.chan 31).inbuf = [] ∧
  (s.chan 31).waiterIn = none ∧ (s.chan 31).waiterOut = none
theorem test_witness_Freer :
    (named 0x901 0).live ((named 0x901 0).x 0) = some (.timer 9) ∧
    (named 0x603 0).live ((named 0x603 0).x 0) = some (.sync 6) ∧
    (named 0x305 0).live ((named 0x305 0).x 0) = some (.lock 3) ∧
    (let s := { named 0x704 0 with spaused := [7] }; s.live (s.x 0) = some (.thread 7) ∧ 7 ∈ s.spaused) ∧
    (let s := named 0x704 0; s.live (s.x 0) = some (.thread 7) ∧ 7 ∉ s.spaused) ∧
    chanIdle (namedChan id) ∧ chanIdle (namedChan fun c => { c with flight := [(2#32, ⟨false, 1#8⟩)] }) ∧
    (∀ f ∈ ([fun c => { c with route := true }, fun c => { c with inmsg := true }, fun c => { c with inbuf := [⟨true, 1#8⟩] },
        fun c => { c with waiterIn := some 1 }, fun c => { c with waiterOut := some 1 }] : List (Chanend → Chanend)),
      (namedChan f).live ((namedChan f).x 0) = some (.chan 31) ∧ chanBusy ((namedChan f).chan 31)) ∧
    (named 0x10001 0).live ((named 0x10001 0).x 0) = none ∧
    (named 0x00080000 0).live ((named 0x00080000 0).x 0) = some (.port 22) ∧
    (named 0x506 0).live ((named 0x506 0).x 0) = some (.clk 5) := by
  unfold chanIdle chanBusy; decide +kernel

theorem test_witness_SetcOnPorts :
    ∀ v ∈ [0x0000, 0x0001, 0x0011, 0x0019, 0x0002, 0x000A, 0x0003, 0x000B, 0x0013, 0x0007, 0x1007, 0x100F, 0x2007, 0x200F,
        0x3007, 0x300F, 0x3017, 0x4007, 0x400F, 0x5007, 0x6007, 0x500F, 0x5017, 0x600F],
      (named 0x00010F00 v).live ((named 0x00010F00 v).x 0) = some (.port 15) ∧ ((named 0x00010F00 v).port 15).width = 1 ∧
      ((named 0x00010F00 v).x 1).toNat = v ∧ (BitVec.ofNat 16 v).toNat = v := by decide +kernel
theorem test_witness_PortRunModes : (withRegs base [(0, 0x00200100)]).lookup ((withRegs base [(0, 0x00200100)]).x 0) =
      some (.port 29) ∧
    (named 0x00200100 0).lookup ((named 0x00200100 0).x 0) = some (.port 29) ∧ ((named 0x00200100 0).port 29).inuse = true ∧
    ((named 0x00200100 0).port 29).modes.bufmode = .synchronised ∧
    (let s := (named 0x00200100 0).updPort 29 fun p => { p with modes := { p.modes with bufmode := .buffered } }
     s.lookup (s.x 0) = some (.port 29) ∧ (s.port 29).inuse = true ∧ (s.port 29).modes.bufmode = .buffered) := by
  decide +kernel
theorem test_witness_SetcOnOthers :
    (∀ v ∈ [0x0001, 0x0009, 0x0002, 0x000A, 0x0011],
      (named 0x901 v).live ((named 0x901 v).x 0) = some (.timer 9) ∧ ((named 0x901 v).x 1).toNat = v) ∧
    (∀ v ∈ [0x0002, 0x000A, 0x0001],
      (named 0x1F02 v).live ((named 0x1F02 v).x 0) = some (.chan 31) ∧ ((named 0x1F02 v).x 1).toNat = v) ∧
    (∀ v ∈ [0x0000, 0x0008, 0x0007, 0x000F],
      (named 0x506 v).lookup ((named 0x506 v).x 0) = some (.clk 5) ∧ ((named 0x506 v).clk 5).inuse = true ∧
      ((named 0x506 v).x 1).toNat = v) ∧
    ((named 1 4).x 1).toNat = 4 ∧ (named 0x305 0).lookup ((named 0x305 0).x 0) = some (.lock 3) ∧
    (named 0x405 0).lookup ((named 0x405 0).x 0) = none := by decide +kernel
theorem test_witness_ThreadSetup :
    (let s := { named 0x704 0 with spaused := [7] }; s.live (s.x 0) = some (.thread 7) ∧ 7 ∈ s.spaused) ∧
    (let s := named 0x704 0; s.live (s.x 0) = some (.thread 7) ∧ 7 ∉ s.spaused) ∧
    (named 0x804 0).live ((named 0x804 0).x 0) = none := by decide +kernel
/-- Synchroniser 6 with threads 1 and 2 as its slaves and thread 0 as their master, executed by thread `tid`. -/
def synced (tid : Nat) (msyn mjoin : Bool) (paused : List Nat) (r : Nat) : State :=
  let s := (full.updSync 6 fun y => { y with slaves := [1, 2], mstr := 0, msyn := msyn, mjoin := mjoin })
  let s := (s.updThr 1 fun t => { t with syn := some 6, pc := 0x10000#32 }).updThr 2 fun t =>
    { t with syn := some 6, pc := 0x10000#32 }
  { s.updThr tid fun t => t.put 0 (word r) with tid := tid, spaused := paused }
theorem test_witness_GetstTsetmr :
    (let s := (synced 0 false false [] 0x603).updThr 7 fun t => { t with inuse := false }
     s.live (s.x 0) = some (.sync 6) ∧ s.cur.inuse = true ∧ 7 < s.threads.length ∧ (s.thr 7).inuse = false ∧
       ∀ q < 7, (s.thr q).inuse = true) ∧
    (let s := synced 0 false false [] 0x603
     s.live (s.x 0) = some (.sync 6) ∧ ∀ q < s.threads.length, (s.thr q).inuse = true) ∧
    (let s := synced 2 false false [] 0
     s.cur.syn = some 6 ∧ (s.sync 6).inuse = true ∧ s.tid ∈ (s.sync 6).slaves ∧
       (s.thr (s.sync 6).mstr).inuse = true) := by decide +kernel
theorem test_witness_ThreadStartEnd :
    (let s := { (named 0x704 0).updThr 7 fun t => { t with pc := 0x1FFFE#32 } with spaused := [7] }
     s.live (s.x 0) = some (.thread 7) ∧ 7 ∈ s.spaused ∧ legalPc s.plat (s.thr 7).pc = true) ∧
    (let s := { (named 0x704 0).updThr 7 fun t => { t with pc := 0x1FFFF#32 } with spaused := [7] }
     s.live (s.x 0) = some (.thread 7) ∧ 7 ∈ s.spaused ∧ legalPc s.plat (s.thr 7).pc = false) := by decide +kernel
def slaveOf (s : State) (k : Nat) : Prop :=
  s.cur.syn = some k ∧ (s.sync k).inuse = true ∧ s.tid ∈ (s.sync k).slaves ∧ k < s.syncs.length ∧ s.tid < s.threads.length
def lastSlave (s : State) (k : Nat) : Prop :=
  (s.sync k).slaves.filter (fun q => !s.spaused.contains q) = [s.tid] ∧ (s.sync k).msyn = true
theorem test_witness_SlaveBarrier :
    (let s := synced 2 true false [1] 0; slaveOf s 6 ∧ lastSlave s 6 ∧ (s.sync 6).mjoin = false) ∧
    (let s := synced 2 true true [1] 0
     slaveOf s 6 ∧ lastSlave s 6 ∧ (s.sync 6).mjoin = true ∧ 7 < s.threads.length ∧ 7 ≠ s.tid) ∧
    (let s := synced 2 true false [] 0; slaveOf s 6 ∧ ¬lastSlave s 6 ∧ s.cur.sr.inint = false) ∧
    (let s := synced 2 false false [1] 0; slaveOf s 6 ∧ ¬lastSlave s 6 ∧ s.cur.sr.inint = false) := by
  unfold slaveOf lastSlave; decide +kernel
theorem test_witness_MasterBarrier :
    (let s := synced 0 false false [1, 2] 0x603
     s.live (s.x 0) = some (.sync 6) ∧ s.tid < s.threads.length ∧ (∀ q ∈ (s.sync 6).slaves, q ∈ s.spaused) ∧
       ∀ q ∈ (s.sync 6).slaves, legalPc s.plat (s.thr q).pc = true) ∧
    (let s := (synced 0 false false [1, 2] 0x603).updThr 2 fun t => { t with pc := 0x10001#32 }
     s.live (s.x 0) = some (.sync 6) ∧ s.tid < s.threads.length ∧ (∀ q ∈ (s.sync 6).slaves, q ∈ s.spaused) ∧
       ∃ q ∈ (s.sync 6).slaves, legalPc s.plat (s.thr q).pc = false) ∧
    (let s := synced 0 false false [1] 0x603
     s.live (s.x 0) = some (.sync 6) ∧ s.tid < s.threads.length ∧ ¬(∀ q ∈ (s.sync 6).slaves, q ∈ s.spaused) ∧
       s.cur.sr.inint = false) := by decide +kernel
theorem test_witness_SpecRefusals :
    base.cur.syn = none ∧
    (let s := (synced 2 true false [] 0).updThr 2 fun t => { t with sr := { t.sr with inint := true } }
     s.cur.syn = some 6 ∧ (s.sync 6).inuse = true ∧ s.tid ∈ (s.sync 6).slaves ∧ s.cur.sr.inint = true ∧
       ¬lastSlave s 6) ∧
    (let s := (synced 0 true false [1] 0x603).updThr 0 fun t => { t with sr := { t.sr with inint := true } }
     s.live (s.x 0) = some (.sync 6) ∧ s.cur.sr.inint = true ∧ ∃ q ∈ (s.sync 6).slaves, q ∉ s.spaused) ∧
    (0x08#16).getLsbD 3 = true ∧ (0x20#16).getLsbD 5 = true ∧ (0x40#16).getLsbD 6 = true ∧
    (let s := { full with tid := 1, mpaused := [0] }; s.dbg.indbg = false ∧ 0 ∈ s.mpaused) ∧
    (let s := { full with tid := 1, spaused := [0] }; s.dbg.indbg = false ∧ 0 ∈ s.spaused) ∧
    (let s := { full.updThr 0 fun t => { t with inuse := false } with tid := 1 }
     s.dbg.indbg = false ∧ (s.thr 0).inuse = false) := by
  unfold lastSlave; decide +kernel
theorem test_witness_ResourceData :
    (named 0x00080000 0).live ((named 0x00080000 0).x 0) = some (.port 22) ∧
    (named 1 0).live ((named 1 0).x 0) = some (.timer 0) ∧
    (∀ v ∈ [2, 12], (named 2 v).live ((named 2 v).x 0) = some (.chan 0) ∧ ((named 2 v).x 1).toNat % 256 = v) ∧
    (named 6 0).live ((named 6 0).x 0) = some (.clk 0) ∧ ((named 6 0).clk 0).running = false ∧
    (named 5 0).live ((named 5 0).x 0) = some (.lock 0) ∧ (named 3 0).live ((named 3 0).x 0) = some (.sync 0) ∧
    (named 4 0).live ((named 4 0).x 0) = some (.thread 0) := by decide +kernel
/-- Channel end 0 named in r0, with n tokens in flight, and a value in r1. -/
def sending (n v : Nat) : State :=
  (named 2 v).updChan 0 fun c => { c with flight := List.replicate n (2#32, ⟨false, 0#8⟩) }
def kernelMode (s : State) : State := s.updThr 0 fun t => { t with sr := { t.sr with ink := true } }
theorem test_witness_Outputs :
    (∀ n ∈ [0, 4, 5, 7, 8], (sending n 0).live ((sending n 0).x 0) = some (.chan 0) ∧ ((sending n 0).chan 0).destset = true) ∧
    ((sending 7 0).chan 0).flight.length + 1 ≤ (sending 7 0).plat.flightCap ∧
    ((sending 4 0).chan 0).flight.length + 4 ≤ (sending 4 0).plat.flightCap ∧
    (BitVec.ofNat 8 ((sending 7 191).x 1).toNat).toNat < 192 ∧ (BitVec.ofNat 8 (11 : Us).val).toNat < 192 ∧
    ((BitVec.ofNat 8 ((kernelMode (sending 7 223)).x 1).toNat).toNat < 224 ∧ (kernelMode (sending 7 223)).cur.sr.ink = true) ∧
    (let s := (sending 0 0).updChan 0 fun c => { c with destset := false }
     s.live (s.x 0) = some (.chan 0) ∧ (s.chan 0).destset = false) ∧
    224 ≤ ((sending 0 224).x 1).toNat % 256 ∧
    (192 ≤ ((sending 0 192).x 1).toNat % 256 ∧ ((sending 0 192).x 1).toNat % 256 < 224 ∧
      (sending 0 192).cur.sr.ink = false ∧ (sending 0 192).plat.privTrap = some .illegalResource) ∧
    (sending 8 0).plat.flightCap < ((sending 8 0).chan 0).flight.length + 1 ∧
    (sending 5 0).plat.flightCap < ((sending 5 0).chan 0).flight.length + 4 := by decide +kernel
/-- Channel end 0 named in r0, with tokens to input, and a value in r1. -/
def receiving (l : List Token) (v : Nat) : State := (named 2 v).updChan 0 fun c => { c with inbuf := l }
def dat (n : Nat) : Token := ⟨false, BitVec.ofNat 8 n⟩
def ctl (n : Nat) : Token := ⟨true, BitVec.ofNat 8 n⟩
theorem test_witness_TokenInputs :
    (∀ k ∈ [dat 0, dat 255, ctl 1, ctl 191, ctl 192, ctl 223], (receiving [k] k.value.toNat).live ((receiving [k] 0).x 0) =
      some (.chan 0) ∧ ((receiving [k] k.value.toNat).chan 0).inbuf = k :: [] ∧
      ((receiving [k] k.value.toNat).x 1).toNat = k.value.toNat) ∧
    (dat 255).control = false ∧ (ctl 191).control = true ∧ (ctl 191).value.toNat < 192 ∧
    (kernelMode (receiving [ctl 223] 223)).cur.sr.ink = true ∧ 224 ≤ (ctl 224).value.toNat ∧
    ((receiving [ctl 1] 2).x 1).toNat ≠ (ctl 1).value.toNat ∧ (11 : Us).val = (ctl 11).value.toNat ∧
    ((receiving [] 0).chan 0).inbuf = [] ∧ (receiving [] 0).live ((receiving [] 0).x 0) = some (.chan 0) := by
  decide +kernel
theorem test_witness_WordInput :
    (∀ l ∈ [[dat 1, dat 2, dat 3, dat 4], [dat 1, dat 2, dat 3, ctl 1], [dat 1, dat 2, dat 3], []],
      (receiving l 0).live ((receiving l 0).x 0) = some (.chan 0) ∧ ((receiving l 0).chan 0).inbuf = l) ∧
    (∃ k ∈ ([dat 1, dat 2, dat 3, ctl 1] : List Token).take 4, k.control = true) ∧
    (([dat 1, dat 2, dat 3] : List Token).length < 4 ∧ ∀ k ∈ [dat 1, dat 2, dat 3], k.control = false) := by
  decide +kernel
theorem test_witness_TokenTests :
    (receiving [ctl 1] 0).live ((receiving [ctl 1] 0).x 0) = some (.chan 0) ∧
    ((receiving [ctl 1] 0).chan 0).inbuf = ctl 1 :: [] ∧
    (receiving [dat 1, dat 2, dat 3, ctl 1] 0).live ((receiving [dat 1, dat 2, dat 3, ctl 1] 0).x 0) = some (.chan 0) ∧
    ((receiving [dat 1, dat 2, dat 3, ctl 1] 0).chan 0).inbuf = [dat 1, dat 2, dat 3] ++ ctl 1 :: [] ∧
    ([dat 1, dat 2, dat 3] : List Token).length < 4 ∧ (∀ q ∈ [dat 1, dat 2, dat 3], q.control = false) ∧
    (ctl 1).control = true ∧
    (receiving [dat 1, dat 2, dat 3, dat 4] 0).live ((receiving [dat 1, dat 2, dat 3, dat 4] 0).x 0) = some (.chan 0) ∧
    4 ≤ ((receiving [dat 1, dat 2, dat 3, dat 4] 0).chan 0).inbuf.length ∧
    (∀ q ∈ ((receiving [dat 1, dat 2, dat 3, dat 4] 0).chan 0).inbuf.take 4, q.control = false) ∧
    ((receiving [] 0).chan 0).destset = true := by decide +kernel
/-- Lock 0 named in r0, changed. -/
def locking (f : Lock → Lock) : State := (named 5 0).updLock 0 f
theorem test_witness_Locks :
    (let s := locking id; s.live (s.x 0) = some (.lock 0) ∧ (s.lock 0).held = false ∧ (s.lock 0).queue = []) ∧
    (let s := locking fun l => { l with queue := [0, 1] }
     s.live (s.x 0) = some (.lock 0) ∧ (s.lock 0).held = false ∧ (s.lock 0).queue = s.tid :: [1]) ∧
    (let s := locking fun l => { l with held := true }; s.live (s.x 0) = some (.lock 0) ∧ (s.lock 0).held = true) ∧
    (let s := locking fun l => { l with queue := [1, 0] }
     s.live (s.x 0) = some (.lock 0) ∧ (s.lock 0).queue = 1 :: [0] ∧ 1 ≠ s.tid) := by decide +kernel
/-- Timer 0 named in r0, in mode AFTER with the given time, the time now being 5. -/
def timing (c : Cond) (d : Nat) : State :=
  { (named 1 0).updTimer 0 fun x => { x with cond := c, data := word d } with reftime := 5#32 }
def lateness (s : State) : Nat := (s.reftime.toNat + 2 ^ 32 - (s.timer 0).data.toNat) % 2 ^ 32
theorem test_witness_TimerInput :
    (let s := timing .uncond 0; s.live (s.x 0) = some (.timer 0) ∧ (s.timer 0).cond ≠ .after) ∧
    (let s := timing .after 4; s.live (s.x 0) = some (.timer 0) ∧ 1 ≤ lateness s ∧ lateness s < 2 ^ 31) ∧
    (let s := timing .after 0x80000006; s.live (s.x 0) = some (.timer 0) ∧ lateness s = 2 ^ 31 - 1) ∧
    (let s := timing .after 5; s.live (s.x 0) = some (.timer 0) ∧ (s.timer 0).cond = .after ∧ lateness s = 0) ∧
    (let s := timing .after 0x80000005; s.live (s.x 0) = some (.timer 0) ∧ (s.timer 0).cond = .after ∧
      lateness s = 2 ^ 31) := by decide +kernel
/-- Channel end 0 with a token for channel end 1 at the head of its flight queue, and channel end 1 changed. -/
def delivering (k : Token) (f : Chanend → Chanend) : State :=
  (full.updChan 0 fun c => { c with flight := [(0x102#32, k)] }).updChan 1 f
def onItsWay (s : State) (k : Token) : Prop :=
  (0 : Nat) ≠ 1 ∧ (s.chan 0).flight = (0x102#32, k) :: [] ∧ s.lookup 0x102#32 = some (.chan 1)
theorem test_witness_TokenDelivery :
    (let s := delivering (ctl 1) fun c => { c with inbuf := List.replicate 7 (dat 1) }
     onItsWay s (ctl 1) ∧ (s.chan 1).inuse = true ∧ (s.chan 1).owner = none ∧ ctl 1 ≠ ⟨true, 2#8⟩ ∧
       (s.chan 1).inbuf.length < s.plat.chanBuf) ∧
    (let s := delivering (dat 1) fun c => { c with owner := some (.chan 0) }
     onItsWay s (dat 1) ∧ (s.chan 1).inuse = true ∧ (s.chan 1).owner = some (.chan 0)) ∧
    (let s := delivering (ctl 2) id; onItsWay s (ctl 2) ∧ (s.chan 1).inuse = true ∧ ctl 2 = ⟨true, 2#8⟩) ∧
    (let s := delivering (dat 1) fun c => { c with inuse := false }; onItsWay s (dat 1) ∧ (s.chan 1).inuse = false) ∧
    (let s := delivering (dat 1) fun c => { c with owner := some (.chan 2) }
     onItsWay s (dat 1) ∧ (s.chan 1).owner = some (.chan 2) ∧ Owner.chan 2 ≠ .chan 0) ∧
    (let s := delivering (dat 1) fun c => { c with inbuf := List.replicate 8 (dat 1) }
     onItsWay s (dat 1) ∧ dat 1 ≠ ⟨true, 2#8⟩ ∧ s.plat.chanBuf ≤ (s.chan 1).inbuf.length) := by
  unfold onItsWay; decide +kernel
/-- The 8-bit port 22 named in r0, with a value in r1, changed. -/
def porting (v : Nat) (f : Port → Port) : State := (named 0x00080000 v).updPort 22 f
def portNamed (s : State) : Prop := s.live (s.x 0) = some (.port 22)
theorem test_witness_PortSetup :
    (let s := porting 6 id; portNamed s ∧ s.x 1 = s.plat.refClkId ∧ (s.port 22).modes.porttype = .dataPort ∧
      (s.port 22).driving = false) ∧
    (let s := porting 0x506 id; portNamed s ∧ s.lookup (s.x 1) = some (.clk 5)) ∧
    (let s := porting 0x00010F00 id; portNamed s ∧ s.lookup (s.x 1) = some (.port 15)) ∧
    (let s := porting 0 fun p => { p with direction := .output, trfull := true }
     portNamed s ∧ (s.port 22).direction = .output ∧ (s.port 22).trfull = true) ∧
    (let s := named 0x506 0x00010F00
     s.live (s.x 0) = some (.clk 5) ∧ (s.clk 5).running = false ∧ s.lookup (s.x 1) = some (.port 15) ∧
       (s.port 15).width = 1) ∧
    (let s := named 0x506 6; s.live (s.x 0) = some (.clk 5) ∧ s.x 1 = s.plat.refClkId) := by
  unfold portNamed; decide +kernel
def buffered (p : Port) : Port := { p with modes := { p.modes with bufmode := .buffered }, trwidth := 32 }
def countFits (p : Port) (b : Us) : Prop :=
  p.modes.bufmode = .buffered ∧ 0 < bitp b ∧ bitp b ≤ p.trwidth ∧ bitp b % p.width = 0
theorem test_witness_PortWidths :
    (let s := porting 32 buffered; portNamed s ∧ (s.port 22).modes.bufmode = .buffered ∧ (s.x 1).toNat = 32 ∧
      (s.port 22).width ≤ 32 ∧ 32 % (s.port 22).width = 0 ∧ 32 ≤ (s.port 22).trwidth ∧ (s.port 22).direction = .input) ∧
    (let s := porting 4 buffered; portNamed s ∧ ¬(s.port 22).width ≤ 4 ∧ 4 % (s.port 22).width ≠ 0) ∧
    (let s := porting 0 id; portNamed s ∧ (s.port 22).modes.bufmode ≠ .buffered) ∧
    (let s := porting 0 fun p => { p with direction := .output, held := false }
     portNamed s ∧ (s.port 22).direction = .output ∧ (s.port 22).held = false) := by
  unfold portNamed; decide +kernel
theorem test_witness_PortOutputs :
    (let s := porting 0 buffered; portNamed s ∧ countFits (s.port 22) 8 ∧ countFits (s.port 22) 11 ∧ ¬countFits (s.port 22) 4 ∧
      ¬((s.port 22).direction = .output ∧ (s.port 22).trfull = true) ∧
      ¬((s.port 22).direction = .input ∧ (s.port 22).modes.bufmode = .buffered ∧ (s.port 22).inputting = true)) ∧
    (let s := porting 0 fun p => { buffered p with direction := .output, trfull := true }
     portNamed s ∧ (s.port 22).direction = .output ∧ (s.port 22).trfull = true ∧ countFits (s.port 22) 8) ∧
    (let s := porting 0 fun p => { buffered p with inputting := true }
     portNamed s ∧ (s.port 22).direction = .input ∧ (s.port 22).modes.bufmode = .buffered ∧
       (s.port 22).inputting = true) := by
  unfold portNamed countFits; decide +kernel
theorem test_witness_PortInputs :
    (let s := porting 0 fun p => { buffered p with trfull := true }
     portNamed s ∧ (s.port 22).trwidth ≤ 32 ∧ (s.port 22).direction = .input ∧ (s.port 22).trfull = true ∧
       countFits (s.port 22) 11 ∧ ¬countFits (s.port 22) 1) ∧
    (let s := porting 0 fun p => { buffered p with pw := some 0 }
     portNamed s ∧ (s.port 22).trwidth ≤ 32 ∧ (s.port 22).direction = .input ∧ (s.port 22).trfull = false ∧
       countFits (s.port 22) 8 ∧ (s.port 22).pw = some s.tid) ∧
    (let s := porting 0 fun p => { buffered p with direction := .output }
     portNamed s ∧ (s.port 22).trwidth ≤ 32 ∧ (s.port 22).direction = .output ∧
       (s.port 22).modes.bufmode = .buffered) := by
  unfold portNamed countFits; decide +kernel
/-- Port 22 in use and running on the clock named by `clk`, changed; the reference clock high, and clock block 1 on it
with a divider. -/
def ticking (clk div : Nat) (f : Port → Port) : State :=
  { porting 0 fun p => f { p with running := true, clk := word clk } with
    refLevel := true
    clks := full.clks.set 1 { full.clk 1 with
      running := true, div := BitVec.ofNat 8 div, srcLevel := true, level := true, count := 4 } }
theorem test_witness_ReferenceClock :
    (let s := { ticking 6 0 id with agenda := [.refEdge] }; s.agenda = .refEdge :: [] ∧ s.threads ≠ []) ∧
    (∀ d ∈ [0, 5, 6], let s := ticking 6 d id
      1 < s.clks.length ∧ (s.clk 1).source = s.plat.refClkId ∧ (s.clk 1).inuse = true ∧ (s.clk 1).running = true ∧
        (s.clk 1).div.toNat = d ∧ (s.clk 1).srcLevel = s.refLevel ∧ s.refLevel = true) ∧
    ((ticking 6 5 id).clk 1).div.toNat ≤ ((ticking 6 5 id).clk 1).count + 1 ∧
    ((ticking 6 6 id).clk 1).count + 1 < ((ticking 6 6 id).clk 1).div.toNat ∧
    (let s := ticking 6 6 id; ((s.clk 0).running = false ∧ 0 < s.clks.length)) ∧
    (let s := (ticking 6 5 id).updClk 1 fun c => { c with srcLevel := false }
     let s := { s with refLevel := false }
     (s.clk 1).source = s.plat.refClkId ∧ (s.clk 1).inuse = true ∧ (s.clk 1).running = true ∧
       0 < (s.clk 1).div.toNat ∧ (s.clk 1).srcLevel = s.refLevel ∧ s.refLevel = false) ∧
    (let s := ticking 6 0 fun p => { p with waiter := some 0 }
     22 < s.ports.length ∧ (s.port 22).clk = s.plat.refClkId ∧ s.refLevel = true ∧ (s.port 22).inuse = true ∧
       (s.port 22).running = true ∧ (s.port 22).setup.direction = .input ∧ (s.port 22).modes.porttype = .dataPort ∧
       (s.port 22).modes.invert = .noInvert) := by
  decide +kernel
/-- A port on clock block 1, whose ready input is the 1-bit port 15. -/
def readying : State := (ticking 0x106 5 id).updClk 1 fun c => { c with rdysrc := some 0x00010F00#32 }
theorem test_witness_ReferenceClock_block :
    (let s := ticking 0x106 5 id
     (s.port 22).clk ≠ s.plat.refClkId ∧ (s.port 22).clk = word (1 * 256 + 6) ∧ (s.clk 1).level = true ∧
       (s.refEdge.clk 1).level = false ∧ s.lookup (s.port 22).clk = some (.clk 1) ∧ (s.clk 1).rdysrc = none) ∧
    (let s := readying
     (s.refEdge.clk 1).level = false ∧ s.lookup (s.port 22).clk = some (.clk 1) ∧
       (s.clk 1).rdysrc = some 0x00010F00#32 ∧ s.lookup 0x00010F00#32 = some (.port 15) ∧ (s.port 15).width = 1 ∧
       (s.port 15).modes.porttype = .dataPort ∧ (s.port 15).driving = false) ∧
    (let s := ticking 0x106 6 id; (s.clk 1).level = true ∧ (s.refEdge.clk 1).level = true) := by
  decide +kernel
/-- The 8-bit port 22, changed. -/
def port8 (f : Port → Port) : Port := f (full.port 22)
def withModes (b : BufMode) (r : RdyMode) (m : MsMode) (p : Port) : Port :=
  { p with modes := { p.modes with bufmode := b, rdymode := r, msmode := m } }
def timely (p : Port) : Prop := p.porttimeset = false ∨ p.porttimer = p.porttime
theorem test_witness_ReferenceClock_cycle :
    (let p := port8 fun p => { p with direction := .output, porttimeset := true, porttime := p.porttimer + 1#16 }
     p.direction = .output ∧ p.modes.bufmode = .synchronised ∧ p.trfull = false ∧ p.porttimer + 1#16 = p.porttime) ∧
    (∀ m ∈ [MsMode.master, MsMode.slave], let p := port8 (withModes .synchronised .handshaken m)
      p.modes.rdymode = .handshaken ∧ p.modes.msmode = m ∧ p.direction = .input ∧ p.trfull = false) ∧
    (let p := port8 (withModes .synchronised .strobed .slave)
     p.modes.rdymode ≠ .noReady ∧ p.modes.rdymode ≠ .handshaken ∧ p.modes.msmode ≠ .master) ∧
    (let p := port8 (withModes .synchronised .strobed .master ∘ fun p => { p with direction := .output, trfull := true })
     p.modes.rdymode = .strobed ∧ p.modes.msmode = .master ∧ p.direction = .output ∧ p.trfull = true ∧ timely p) ∧
    (∀ t ∈ [0, 1], let p := port8 fun p => { p with
        direction := .output, trfull := true, porttimeset := true, porttime := BitVec.ofNat 16 t }
      p.modes.rdymode = .noReady ∧ p.direction = .output ∧ (timely p ↔ t = 0)) ∧
    (∀ c ∈ [Cond.uncond, .eq, .neq], let p := port8 fun p => { p with cond := c, data := 0x1FF#32, waiter := some 0 }
      p.modes.rdymode = .noReady ∧ p.modes.bufmode = .synchronised ∧ p.direction = .input ∧ p.trfull = false ∧
        timely p ∧ p.waiter ≠ none ∧ p.cond = c ∧ p.data.toNat % 2 ^ p.width = 0xFF) := by
  unfold timely; decide +kernel
theorem test_witness_ReferenceClock_buffered :
    (∀ n ∈ [0, 8, 32], let p := port8 fun p => { withModes .buffered .noReady .master p with
        direction := .output, trfull := true, sfill := n, trwidth := 32 }
      p.modes.bufmode = .buffered ∧ p.direction = .output ∧ p.trfull = true ∧ timely p ∧ p.sfill = n) ∧
    (∀ n ∈ [0, 24, 32], let p := port8 fun p => { withModes .buffered .noReady .master p with
        sfill := n, trwidth := 32, shiftcount := 32 }
      p.modes.bufmode = .buffered ∧ p.direction = .input ∧ p.trfull = false ∧ timely p ∧ p.cond = .uncond ∧
        p.sfill = n ∧ p.shiftcount = 32) ∧
    (∀ c ∈ [Cond.eq, .neq], let p := port8 fun p => { withModes .buffered .noReady .master p with cond := c }
      p.modes.bufmode = .buffered ∧ p.direction = .input ∧ p.cond = c ∧ p.cond ≠ .uncond) := by
  unfold timely; decide +kernel
theorem test_witness_ResourceTraps :
    (named 0x10001 0).live ((named 0x10001 0).x 0) = none ∧ (base.live (base.x 0)) = none ∧
    (named 0x305 0).live ((named 0x305 0).x 0) = some (.lock 3) ∧
    (named 0x901 0).live ((named 0x901 0).x 0) = some (.timer 9) := by decide +kernel
theorem test_witness_StatusAndWaits : (0x97#16).getLsbD 3 = false ∧ (0x97#16).getLsbD 5 = false ∧
    (0x97#16).getLsbD 6 = false ∧ ((withRegs base [(0, 1)]).x 0).toNat ≠ 0 ∧ (base.x 0).toNat = 0 := by decide +kernel
theorem test_witness_EventSetup :
    (named 1 0).live ((named 1 0).x 0) = some (ResRef.timer 0).res ∧
    (named 2 0).live ((named 2 0).x 0) = some (ResRef.chan 0).res ∧
    (named 0x00200100 0).live ((named 0x00200100 0).x 0) = some (ResRef.port 29).res := by decide +kernel
theorem test_witness_EcallAndKret : ((withRegs base [(0, 0x80000000)]).x 0).toNat ≠ 0 ∧ (base.x 0).toNat = 0 := by
  decide +kernel
theorem test_witness_SavedRegisters :
    (∀ k ∈ [4, 8, 12, 16], ((based 0x1FFEC).x sp + word k).toNat % 4 = 0 ∧
      memValid defaultPlatform ((based 0x1FFEC).x sp + word k).toNat = true ∧
      inRom defaultPlatform ((based 0x1FFEC).x sp + word k).toNat = false) ∧
    Memory.wf (based 0x1FFEC).mem = true ∧
    ((based 0x1FFEC).x sp + (4#16).setWidth 32 * 4#32).toNat % 4 = 0 ∧
    memValid defaultPlatform ((based 0x1FFEC).x sp + (4#16).setWidth 32 * 4#32).toNat = true ∧
    (based 0x1FFFC).cur.ksp.toNat % 4 = 0 ∧ memValid defaultPlatform (based 0x1FFFC).cur.ksp.toNat = true ∧
    inRom defaultPlatform (based 0x1FFFC).cur.ksp.toNat = false := by decide +kernel
/-- Timer 9 ready for thread t, which accepts its events or interrupts. -/
def requesting (t : Nat) (m : IeMode) (move : Move) : State :=
  { (full.updTimer 9 fun x => { x with es := ⟨t, 0x10200#32, 0x55#32, true, m⟩ }).updThr t fun th =>
      { th with sr := { th.sr with eeble := true, ieble := true, waiting := true } } with agenda := [move] }
def requested (s : State) (t : Nat) (m : IeMode) : Prop :=
  (t = 0 → s.debugDue = false) ∧ (s.thr t).inuse = true ∧ t ∉ s.spaused ∧ t ∉ s.mpaused ∧ (s.dbg.indbg = false ∨ t = 0) ∧
  s.refInuse (.timer 9) = true ∧ (s.es (.timer 9)).thread = t ∧ (s.es (.timer 9)).enb = true ∧
  (s.es (.timer 9)).iemode = m ∧ s.ready (.timer 9) = true
theorem test_witness_EventEntry : ∀ t ∈ [0, 7],
    let s := requesting t .event (.event t (.timer 9))
    s.agenda = .event t (.timer 9) :: [] ∧ requested s t .event ∧ (s.thr t).sr.eeble = true := by
  unfold requested; decide +kernel
theorem test_witness_InterruptEntry : ∀ t ∈ [0, 7],
    let s := requesting t .interrupt (.interrupt t (.timer 9))
    s.agenda = .interrupt t (.timer 9) :: [] ∧ requested s t .interrupt ∧ (s.thr t).sr.ieble = true := by
  unfold requested; decide +kernel
theorem test_witness_ThreadsThatMayNotMove : full.threads ≠ [] ∧ full.debugDue = false ∧
    (∀ m ∈ ([.issue 7, .event 7 (.timer 9), .interrupt 7 (.timer 9), .resume 7] : List Move),
      (requesting 7 .event m).agenda = m :: [] ∧ (requesting 7 .event m).debugDue = false) ∧
    ((full.updThr 7 fun t => { t with inuse := false }).thr 7).inuse = false ∧
    7 ∈ ({ full with spaused := [7] } : State).spaused ∧ 7 ∈ ({ full with mpaused := [7] } : State).mpaused ∧
    (({ full with dbg := { full.dbg with indbg := true } } : State).dbg.indbg = true ∧ 7 ≠ 0) ∧
    ((requesting 7 .event (.issue 7)).thr 7).sr.waiting = true ∧ (full.thr 7).sr.eeble = false ∧
    (full.thr 7).sr.ieble = false := by decide +kernel
def debugged (f : Debug → Debug) : State := { full with dbg := f full.dbg }
theorem test_witness_DebugEntry :
    ((full.thr 0).inuse = true ∧ 0 ∉ full.spaused ∧ 0 ∉ full.mpaused ∧ full.dbg.indbg = false) ∧
    (debugged fun g => { g with indbg := true }).dbg.indbg = true ∧
    (∀ m ∈ ([.issue 0, .event 0 (.timer 9), .interrupt 0 (.timer 9), .resume 0] : List Move),
      let s := { debugged fun g => { g with request := some 1#32 } with agenda := [m] }
      s.agenda = m :: [] ∧ s.dbg.indbg = false ∧ s.dbg.request = some 1#32 ∧ (s.thr 0).inuse = true ∧ 0 ∉ s.spaused ∧
        0 ∉ s.mpaused) := by decide +kernel
theorem test_witness_DebugInstructions : full.dbg.indbg = false ∧
    (∀ k ∈ [0, 11, 15, 16, 17, 24], let s := debugged fun g => { g with indbg := true, dtid := 7#32, dtreg := word k }
      s.dbg.indbg = true ∧ s.dbg.dtid.toNat < s.threads.length ∧ s.dbg.dtreg.toNat = k) ∧
    (let s := debugged fun g => { g with indbg := true, dtid := 8#32 }
     s.dbg.indbg = true ∧ s.threads.length ≤ s.dbg.dtid.toNat) ∧
    (let s := debugged fun g => { g with indbg := true, dtreg := 25#32 }
     s.dbg.indbg = true ∧ 24 < s.dbg.dtreg.toNat) := by decide +kernel
def psNamed (s : State) (n : Nat) (q : PsReg) : Prop :=
  (s.x 0).toNat % 256 = 11 ∧ (s.x 0).toNat / 65536 = 0 ∧ (s.x 0).toNat / 256 % 256 = n ∧
  s.plat.psRegs.find? (fun p => decide (p.number = n)) = some q
theorem test_witness_PsRegisters :
    psNamed (named 0x30B 0) 3 ⟨3, .cell, true⟩ ∧
    (psNamed (named 0x00B 0xFFFFC000) 0 ⟨0, .rambase, false⟩ ∧
      ((named 0x00B 0xFFFFC000).x 1).toNat = (named 0x00B 0xFFFFC000).plat.romBase % 2 ^ 32) ∧
    (psNamed (named 0x00B 0x20000) 0 ⟨0, .rambase, false⟩ ∧
      ¬((named 0x00B 0x20000).x 1).toNat = (named 0x00B 0x20000).plat.romBase % 2 ^ 32) ∧
    psNamed (named 0x170B 1) 0x17 ⟨0x17, .dbgint, false⟩ ∧
    ¬((named 1 0).x 0).toNat % 256 = 11 ∧ ¬((named 0x1000B 0).x 0).toNat / 65536 = 0 ∧
    (∀ p ∈ (named 0xFF0B 0).plat.psRegs, p.number ≠ 0xFF) ∧ ((named 0xFF0B 0).x 0).toNat / 256 % 256 = 0xFF := by
  unfold psNamed; decide +kernel
theorem test_witness_LongArithmetic : (0 : Reg) ≠ 1 ∧
    ((withRegs base [(2, 8), (3, 7)]).x 3).toNat < ((withRegs base [(2, 8), (3, 7)]).x 2).toNat ∧ (11 : Reg) = 11 := by
  decide +kernel
theorem test_witness_Checksums : (3 : Reg) ≠ 0 ∧ base.tid < base.threads.length ∧ (3 : Reg) ≠ 2 ∧ (0 : Reg) ≠ 2 ∧
    (0 : Reg) ≠ 1 := by decide +kernel

/-! Further clauses of the statements above: the traps and waits at their boundaries. -/

theorem test_witness_IdentifiersName :
    (named 0x00080000 0).live ((named 0x00080000 0).x 0) = some (.port 22) := by decide +kernel
theorem test_witness_PortSetup_traps :
    (∀ v ∈ [1, 0x606, 0x00010F00], let s := porting v id
      portNamed s ∧ s.x 1 ≠ s.plat.refClkId ∧ ∀ k < 256, s.lookup (s.x 1) ≠ some (.clk k)) ∧
    (∀ v ∈ [0, 6], let s := porting v id
      portNamed s ∧ s.lookup (s.x 1) = (if v = 6 then some (.clk 0) else none)) ∧
    (let s := (named 0x506 6).updClk 5 fun c => { c with running := true }
     s.live (s.x 0) = some (.clk 5) ∧ (s.clk 5).running = true) ∧
    (let s := named 0x506 0x00080000
     s.live (s.x 0) = some (.clk 5) ∧ s.x 1 ≠ s.plat.refClkId ∧ s.lookup (s.x 1) = some (.port 22) ∧
       (s.port 22).width ≠ 1) := by
  unfold portNamed; decide +kernel
theorem test_witness_PortInputs_synchronised : ∀ full' ∈ [true, false],
    let s := porting 0 fun p => { p with direction := .output, trfull := full' }
    portNamed s ∧ (s.port 22).trwidth ≤ 32 ∧ (s.port 22).direction = .output ∧
      (s.port 22).modes.bufmode = .synchronised ∧ (s.port 22).trfull = full' := by
  unfold portNamed; decide +kernel
theorem test_witness_ResourceTraps_types :
    (named 0x603 0).live ((named 0x603 0).x 0) = some (.sync 6) ∧
    (named 0x704 0).live ((named 0x704 0).x 0) = some (.thread 7) ∧
    (named 0x506 0).live ((named 0x506 0).x 0) = some (.clk 5) ∧
    (named 0x00080000 0).live ((named 0x00080000 0).x 0) = some (.port 22) ∧
    (named 0x1F02 0).live ((named 0x1F02 0).x 0) = some (.chan 31) := by decide +kernel
theorem test_witness_TokenTests_waits :
    (∀ l ∈ [[], [dat 1, dat 2, dat 3]], (receiving l 0).live ((receiving l 0).x 0) = some (.chan 0) ∧
      ((receiving l 0).chan 0).inbuf.length < 4 ∧ ∀ q ∈ ((receiving l 0).chan 0).inbuf, q.control = false) ∧
    (let s := (receiving [] 0).updChan 0 fun c => { c with destset := false }
     s.live (s.x 0) = some (.chan 0) ∧ (s.chan 0).destset = false) := by decide +kernel
theorem test_witness_ResourceData_traps :
    (∀ v ∈ [1, 3, 11, 13], (named 2 v).live ((named 2 v).x 0) = some (.chan 0) ∧ ((named 2 v).x 1).toNat % 256 ≠ 2 ∧
      ((named 2 v).x 1).toNat % 256 ≠ 12) ∧
    (let s := (named 6 0).updClk 0 fun c => { c with running := true }
     s.live (s.x 0) = some (.clk 0) ∧ (s.clk 0).running = true) := by decide +kernel
theorem test_witness_GetstTsetmr_traps :
    let s := (synced 2 false false [] 0).updThr 0 fun t => { t with inuse := false }
    s.cur.syn = some 6 ∧ (s.sync 6).inuse = true ∧ s.tid ∈ (s.sync 6).slaves ∧ (s.thr (s.sync 6).mstr).inuse = false := by
  decide +kernel
theorem test_witness_TokenInputs_privileged : ∀ v ∈ [192, 223], let s := receiving [ctl v] v
    s.live (s.x 0) = some (.chan 0) ∧ (s.x 1).toNat = (ctl v).value.toNat ∧ s.plat.privTrap = some .illegalResource ∧
      ¬((ctl v).value.toNat < 192 ∨ s.cur.sr.ink = true ∨ 224 ≤ (ctl v).value.toNat ∨ s.plat.privTrap = none) := by
  decide +kernel
theorem test_witness_SetcOnOthers_traps :
    ((named 1 0x000F).x 1 = (0x000F#16).setWidth 32) ∧
    (named 0x00080000 9).lookup ((named 0x00080000 9).x 0) = some (.port 22) ∧
    ((named 0x00080000 9).port 22).width ≠ 1 ∧
    (named 0x506 0x17).lookup ((named 0x506 0x17).x 0) = some (.clk 5) ∧
    (let s := withRegs base [(0, 1), (1, 1)]; (s.x 1).toNat ≠ 0 ∧ (s.x 1).toNat ≠ 8 ∧ s.live (s.x 0) = none) := by
  decide +kernel
theorem test_witness_SetcOnOthers_values :
    (∀ v ∈ [0x0004, 0x0005, 0x0018, 0x001F, 0x7007, 0x10001], (named 1 v).x 1 = word v ∧ ((named 1 v).x 1).toNat ∉
      [0x0000, 0x0008, 0x0001, 0x0009, 0x0011, 0x0019, 0x0002, 0x000A, 0x0003, 0x000B, 0x0013, 0x0007,
        0x000F, 0x0017, 0x1007, 0x100F, 0x2007, 0x200F, 0x3007, 0x300F, 0x3017, 0x4007, 0x400F, 0x5007, 0x500F, 0x5017,
        0x6007, 0x600F]) ∧
    (∀ v ∈ [0x0000, 0x0008, 0x0011, 0x600F],
      (named 0x901 v).lookup ((named 0x901 v).x 0) = some (.timer 9) ∧
        ((named 0x901 v).x 1).toNat ∉ [0x0001, 0x0009, 0x0002, 0x000A] ∧
        (named 0x1F02 v).lookup ((named 0x1F02 v).x 0) = some (.chan 31) ∧
        ((named 0x1F02 v).x 1).toNat ∉ [0x0002, 0x000A]) ∧
    ((named 0x506 0x0001).x 1).toNat ∉ [0x0000, 0x0008, 0x0007, 0x000F] ∧
    (∀ v ∈ [0x500F, 0x5017, 0x600F], (named 0x00080000 v).lookup ((named 0x00080000 v).x 0) = some (.port 22) ∧
      ((named 0x00080000 v).x 1).toNat = v ∧ ((named 0x00080000 v).port 22).width ≠ 1) ∧
    (named 0x603 0).lookup ((named 0x603 0).x 0) = some (.sync 6) ∧
    (named 0x704 0).lookup ((named 0x704 0).x 0) = some (.thread 7) := by decide +kernel
/-- The identifier names no thread. -/
def noThread (s : State) : Bool := match s.live (s.x 0) with | some (.thread _) => false | _ => true
theorem not_thread {s : State} (h : noThread s = true) (m : Nat) : s.live (s.x 0) ≠ some (.thread m) := by
  intro e
  rw [noThread, e] at h
  cases h
theorem test_witness_ThreadSetup_types :
    ∀ r ∈ [0x901, 0x1F02, 0x603, 0x305, 0x506, 0x00080000, 0x804], noThread (named r 0) = true := by decide +kernel
theorem test_witness_ThreadSetup_lock (m : Nat) : (named 0x305 0).live ((named 0x305 0).x 0) ≠ some (.thread m) :=
  not_thread (by decide +kernel) m
theorem test_witness_Outputs_full : ∀ v ∈ [0, 191, 223],
    let s := kernelMode (sending 8 v)
    s.live (s.x 0) = some (.chan 0) ∧ (s.chan 0).destset = true ∧ (s.x 1).toNat % 256 < 224 ∧ s.cur.sr.ink = true ∧
      s.plat.flightCap < (s.chan 0).flight.length + 1 := by decide +kernel
theorem test_witness_TokenDelivery_move :
    let s := { delivering (dat 1) id with agenda := [.deliver 0] }
    s.agenda = .deliver 0 :: [] ∧ s.threads ≠ [] := by decide +kernel
theorem test_witness_ThreadsThatMayNotMove_event :
    let s := (requesting 7 .event (.resume 7)).updThr 7 fun t => { t with evwait := true }
    s.agenda = .resume 7 :: [] ∧ (s.thr 7).evwait = true ∧ s.debugDue = false ∧ s.threads ≠ [] := by decide +kernel

/-! ## The agents -/

/-- IN on a SYNCHRONISED port that outputs: the cycle that turns it samples what the environment drives, not its own last
output (R469, R479). -/
theorem test_turned_port_samples_its_pins :
    let s := ticking 6 0 fun p => { p with
      direction := .input, driving := true, outval := 0x55#32, ext := 0xAA#32, waiter := some 0 }
    ((s.refEdge).port 22).transfer = 0xAA#32 ∧ ((s.refEdge).port 22).driving = false := by decide +kernel
/-- A port set to a time, with nothing to output by then, inputs at that time (R479; log 43). -/
theorem test_timed_port_turns_to_input :
    let s := ticking 6 0 fun p => { p with
      direction := .output, driving := true, outval := 0x55#32, ext := 0xAA#32, porttimeset := true, porttime := 1#16 }
    ((s.refEdge).port 22).direction = .input ∧ ((s.refEdge).port 22).transfer = 0xAA#32 ∧
      ((s.refEdge).port 22).porttimeset = false := by decide +kernel
/-- A thread waiting for an event is neither resumed nor re-issued (R540). -/
theorem test_wait_is_not_resumed :
    (match exec .waiteu base with | .next s => s.resumable 0 || s.runnable 0 | _ => true) = false := by
  decide +kernel
/-- The last slave at a barrier runs on with what its instruction buffer holds; a thread that TSTART starts does not
(R112, R737). -/
theorem test_old_parcels_at_barriers :
    (let s := { synced 2 true false [1] 0 with stale := [⟨2, 0x10000, 1#16⟩] }
     match exec .ssync s with | .next t => t.stale == s.stale && !t.spaused.contains 1 | _ => false) = true ∧
    (let s := { (named 0x704 0).updThr 7 (fun t => { t with pc := 0x10000#32 }) with
        spaused := [7], stale := [⟨7, 0x10000, 1#16⟩] }
     match exec (.tstart 0) s with | .next t => t.stale == [] | _ => false) = true := by decide +kernel
/-- Two channel ends compete for one place: who was not served last is next (R406). -/
theorem test_delivery_takes_turns :
    (let c := fun (n : Nat) => ({ full.chan n with flight := [(0x202#32, dat n), (0x202#32, ctl 1)] } : Chanend)
     let s := { full with chans := (full.chans.set 0 (c 0)).set 1 (c 1), served := [0, 1], agenda := [] }
     ((s.agentsRound).chan 2).inbuf.head?) = some (dat 0) ∧
    (let c := fun (n : Nat) => ({ full.chan n with flight := [(0x202#32, dat n), (0x202#32, ctl 1)] } : Chanend)
     let s := { full with chans := (full.chans.set 0 (c 0)).set 1 (c 1), served := [0], agenda := [] }
     ((s.agentsRound).chan 2).inbuf.head?) = some (dat 1) := by decide +kernel
/-- DCALL in debug mode is refused (U10). -/
theorem test_dcall_in_debug_mode :
    (match exec .dcall (debugged fun g => { g with indbg := true }) with | .refused r => r == .debugEntryUndefined | _ => false)
      = true := by decide +kernel

/-! ## Where two rules of the spec disagree -/

/-- A platform that takes the other rule of the two in both places (log 47, log 49). -/
def otherRules (s : State) : State := { s with plat := { s.plat with offNeedsInuse := true, valueFirst := true } }
/-- An unset destination and a privileged token (R411 and R680). -/
def unsetDest : State := (sending 0 192).updChan 0 fun c => { c with destset := false }
/-- Port 22, off, with the mode INUSE_OFF (R357 and R466). -/
def switchedOff : State := (named 0x00080000 0).updPort 22 fun p => { p with inuse := false }
theorem test_witness_Outputs_unset : ∀ s ∈ [unsetDest, otherRules unsetDest],
    s.live (s.x 0) = some (.chan 0) ∧ (s.chan 0).destset = false ∧ 192 ≤ (s.x 1).toNat % 256 ∧
      (s.x 1).toNat % 256 < 224 ∧ s.cur.sr.ink = false ∧ s.plat.privTrap = some .illegalResource := by decide +kernel
theorem test_witness_SetcOnOthers_off : ∀ s ∈ [switchedOff, otherRules switchedOff],
    s.lookup (s.x 0) = some (.port 22) ∧ (s.port 22).inuse = false ∧ (s.x 1).toNat = 0 := by decide +kernel
theorem test_witness_otherRules : switchedOff.plat.offNeedsInuse = false ∧
    (otherRules switchedOff).plat.offNeedsInuse = true ∧ unsetDest.plat.valueFirst = false ∧
    (otherRules unsetDest).plat.valueFirst = true := by decide +kernel
/-- The exception type thread 0 has taken, if any. -/
def etAfter (i : Instr) (s : State) : Option Nat := match exec i s with | .next t => some (t.thr 0).et.toNat | _ => none
theorem test_outct_order : etAfter (.outct 0 1) unsetDest = some 1 ∧ etAfter (.outct 0 1) (otherRules unsetDest) = some 4 := by
  decide +kernel
theorem test_inuse_off_of_a_port_that_is_off :
    etAfter (.setc 0 1) switchedOff = some 0 ∧ etAfter (.setc 0 1) (otherRules switchedOff) = some 4 := by decide +kernel

/-! ## Pins, freed synchronisers, and the lowest illegal slave -/

/-- Port 15, of 1 bit, named in r0 and changed. -/
def porting1 (f : Port → Port) : State := (named 0x00010F00 0).updPort 15 f
theorem test_witness_PortSetup_pins :
    (∀ d ∈ [Drive.drive, .pullDown, .pullUp], ∀ i ∈ [Invert.noInvert, .invert],
      let s := porting1 fun p => { p with driving := true, modes := { p.modes with drive := d, invert := i } }
      s.live (s.x 0) = some (.port 15) ∧ (s.port 15).modes.porttype = .dataPort ∧ (s.port 15).driving = true ∧
        (s.port 15).modes.drive = d ∧ (s.port 15).modes.invert = i) ∧
    (let s := porting1 fun p => { p with modes := { p.modes with porttype := .clockPort } }
     s.live (s.x 0) = some (.port 15) ∧ (s.port 15).modes.porttype = .clockPort ∧ (s.port 15).clk = s.plat.refClkId) ∧
    (let s := porting1 fun p => { p with clk := 0x106#32, modes := { p.modes with porttype := .clockPort } }
     (s.port 15).clk ≠ s.plat.refClkId ∧ s.lookup (s.port 15).clk = some (.clk 1)) ∧
    (∀ b ∈ [true, false],
      let o := if b then some 0x00080000#32 else none
      let s := porting1 fun p => { p with rdyport := o, modes := { p.modes with porttype := .readyPort } }
      s.live (s.x 0) = some (.port 15) ∧ (s.port 15).modes.porttype = .readyPort ∧ (s.port 15).rdyport = o ∧
        s.lookup 0x00080000#32 = some (.port 22)) := by decide +kernel
/-- What a 1-bit port that outputs 1 shows while the environment puts 0 there, and the other way round (R468). -/
theorem test_drive_modes :
    ([Drive.drive, .pullDown, .pullUp].map fun d => ((porting1 fun p => { p with
      driving := true, outval := 1#32, ext := 0#32, modes := { p.modes with drive := d } }).pins 15)) = [1#32, 0#32, 1#32] ∧
    ([Drive.drive, .pullDown, .pullUp].map fun d => ((porting1 fun p => { p with
      driving := true, outval := 0#32, ext := 1#32, modes := { p.modes with drive := d } }).pins 15)) = [0#32, 0#32, 1#32] := by
  decide +kernel
theorem test_witness_ReferenceClock_inverted :
    let p := (porting1 fun p => { p with modes := { p.modes with invert := .invert } }).port 15
    p.setup.direction = .input ∧ p.modes.porttype = .dataPort ∧ p.modes.invert = .invert ∧ p.width = 1 := by decide +kernel
theorem test_witness_SpecRefusals_stale :
    (let s := (synced 2 false false [] 0).updSync 6 fun y => { y with inuse := false }
     s.cur.syn = some 6 ∧ (s.sync 6).inuse = false) ∧
    (let s := (synced 2 false false [] 0).updSync 6 fun y => { y with slaves := [1] }
     s.cur.syn = some 6 ∧ s.tid ∉ (s.sync 6).slaves) := by decide +kernel
theorem test_msync_reports_the_lowest :
    (let s := ((synced 0 false false [1, 2] 0x603).updThr 1 fun t => { t with pc := 0x10003#32 }).updThr 2 fun t =>
       { t with pc := 0x10005#32 }
     match exec (.msync 0) (s.updSync 6 fun y => { y with slaves := [2, 1] }) with
     | .next t => (t.thr 0).ed == 0x10003#32 && (t.thr 0).et == 2#32
     | _ => false) = true := by decide +kernel

/-! ## An illegal BOOT_PC (R722), and defaults of a port (R453) -/

/-- Thread 0 about to issue at the illegal BOOT_PC of its platform. -/
def badBoot : State :=
  let s := issueBase 0x10001 []
  { s with plat := { s.plat with bootPc := 0x10001#32 } }
theorem test_witness_IssueTraps_boot : issuing badBoot ∧ legalPc badBoot.plat (badBoot.thr 0).pc = false ∧
    (badBoot.thr 0).pc = badBoot.plat.bootPc ∧
    (issueBase 0x10001 []).plat.bootPc ≠ ((issueBase 0x10001 []).thr 0).pc := by unfold issuing; decide +kernel
theorem test_bad_boot_pc_is_refused :
    (match step badBoot with | .refused r => r == .bootPcIllegal | _ => false) = true := by decide +kernel
theorem test_inuse_on_takes_the_platform_defaults :
    (let s := { switchedOff with plat := { switchedOff.plat with portCond := .eq, portIemode := .interrupt } }
     match exec (.setci 0 0x0008#16) s with
     | .next t => (t.port 22).cond == .eq && (t.port 22).es.iemode == .interrupt
     | _ => false) = true := by decide +kernel

/-! ## Instruction buffers of free threads (R112), and links (R402) -/

/-- A store near the pc of a thread that is not in use leaves its old parcel to it. -/
theorem test_store_near_a_free_thread :
    (let s := base.updThr 7 fun t => { t with inuse := false, pc := 0x10000#32 }
     (s.memWrite 0x10002#32 2 0x1234#32).stale) = [⟨0, 0x10002, 0#16⟩, ⟨7, 0x10002, 0#16⟩] := by decide +kernel
/-- A data token 1 has one one bit among its nine, so that the last bit is a one; control token 1 has two. -/
theorem test_serial_link :
    serialBits false ⟨false, 1#8⟩ = [false, true, false, false, false, false, false, false, false, true] ∧
    serialBits false ⟨true, 1#8⟩ = [true, true, false, false, false, false, false, false, false, false] := by decide +kernel
/-- The codes R402 writes out: e e v v, v v e e, e 00 e 00, e 11 e 11, and e 11 11 v, which is no token. -/
theorem test_fast_link :
    fastItem true [.escape, .escape, .pair 1#2, .pair 2#2] = some (.token ⟨true, 1#8⟩) ∧
    fastItem true [.pair 1#2, .pair 2#2, .escape, .escape] = some (.token ⟨true, 2#8⟩) ∧
    fastItem true [.escape, .pair 0#2, .escape, .pair 0#2] = some (.token ⟨true, 224#8⟩) ∧
    fastItem true [.escape, .pair 3#2, .escape, .pair 3#2] = some (.token ⟨true, 227#8⟩) ∧
    fastItem true [.escape, .pair 3#2, .pair 3#2, .pair 0#2] = some .nop ∧
    fastItem true [.pair 0#2, .escape, .pair 0#2, .pair 1#2] = some (.token ⟨true, 129#8⟩) := by decide +kernel
/-- From an odd pc, which TINITPC can leave, the parcels that fetches read are noted too (R112; log 13). -/
theorem test_store_near_an_odd_pc :
    (let s := base.updThr 7 fun t => { t with pc := 0x10101#32 }
     (s.memWrite 0x10108#32 2 0x1234#32).stale) = [⟨7, 0x10108, 0#16⟩] := by decide +kernel

end Sys2Proof.Tests
end

section
/-! The parameters of R10 are fixed for a machine (R10, R46, R70): each update of the state keeps the platform, the
numbers of resources and the identifiers of the ports, each shared operation answers a state of the same machine, and
so do each instruction, each move of an agent and each step. -/
namespace Sys2Proof.Machine

/-! ### The parameters of a machine as one value -/

/-- What `State.sameMachine` compares (R10, R70): the platform, the numbers of threads, timers, channel ends,
synchronisers, locks and clock blocks, and the identifiers of the ports. -/
def State.machine (s : State) : Platform × Nat × Nat × Nat × Nat × Nat × Nat × List Word :=
  (s.plat, s.threads.length, s.timers.length, s.chans.length, s.syncs.length, s.locks.length, s.clks.length,
    s.ports.map Port.id)

theorem State.sameMachine_iff {s t : State} : s.sameMachine t ↔ t.machine = s.machine := by
  simp [State.sameMachine, State.machine]

/-- The answer, where it is a next state, is one of the machine of s. -/
def KeepsMachine (s : State) : Result → Prop
  | .next t => t.machine = s.machine
  | _ => True

theorem KeepsMachine.of_machine_eq {s t : State} {r : Result} (h : t.machine = s.machine) (hr : KeepsMachine t r) :
    KeepsMachine s r := by
  cases r with
  | next u => exact Eq.trans hr h
  | fault => trivial
  | refused => trivial

/-! ### A port keeps its identifier (R70) -/

@[simp] theorem Port.fill_id (p : Port) (v : Word) : (p.fill v).id = p.id := by
  unfold Port.fill Port.turnOut
  split <;> rfl

@[simp] theorem Port.take_id (p : Port) : p.take.id = p.id := rfl

@[simp] theorem Port.beginPartial_id (tid count : Nat) (p : Port) : (p.beginPartial tid count).id = p.id := by
  unfold Port.beginPartial
  split <;> rfl

theorem Port.started_id (free : Nat) (p : Port) : (p.started free).id = p.id := by
  unfold Port.started
  split <;> rfl

/-- No mode of SETC changes the identifier (R452): of the modes that a port does not always take, the three for 1-bit
ports alone can answer. -/
theorem Port.setMode_id {pl : Platform} {free : Nat} {p q : Port} {m : Mode} (h : p.setMode pl free m = some q) :
    q.id = p.id := by
  cases m with
  | condAfter => cases h
  | runStart => cases h; exact p.started_id free
  | clockPort | readyPort | invert =>
    obtain ⟨-, hq⟩ := Option.ite_none_right_eq_some.1 h
    cases hq
    rfl
  | _ => cases h; rfl

/-! ### The updates of one thread or one resource -/

@[simp] theorem State.updThr_machine (s : State) (n : Nat) (f : Thread → Thread) :
    (s.updThr n f).machine = s.machine := by simp [State.machine, State.updThr]
@[simp] theorem State.updTimer_machine (s : State) (n : Nat) (f : Timer → Timer) :
    (s.updTimer n f).machine = s.machine := by simp [State.machine, State.updTimer]
@[simp] theorem State.updChan_machine (s : State) (n : Nat) (f : Chanend → Chanend) :
    (s.updChan n f).machine = s.machine := by simp [State.machine, State.updChan]
@[simp] theorem State.updSync_machine (s : State) (n : Nat) (f : Sync → Sync) :
    (s.updSync n f).machine = s.machine := by simp [State.machine, State.updSync]
@[simp] theorem State.updLock_machine (s : State) (n : Nat) (f : Lock → Lock) :
    (s.updLock n f).machine = s.machine := by simp [State.machine, State.updLock]
@[simp] theorem State.updClk_machine (s : State) (n : Nat) (f : ClockBlock → ClockBlock) :
    (s.updClk n f).machine = s.machine := by simp [State.machine, State.updClk]

/-- A port may be changed in all but its identifier. -/
@[simp] theorem State.updPort_machine (s : State) (n : Nat) {f : Port → Port}
    (h : (f (s.port n)).id = (s.port n).id) : (s.updPort n f).machine = s.machine := by
  have hids : (s.ports.set n (f (s.port n))).map Port.id = s.ports.map Port.id := by
    rw [List.map_set, h, State.port, ← List.getD_map (f := Port.id)]
    exact set_getD_self _ _ _
  simp [State.updPort_eq, State.withPortN, State.machine, hids]

@[simp] theorem State.updEs_machine (s : State) (r : ResRef) (f : EventState → EventState) :
    (s.updEs r f).machine = s.machine := by
  cases r <;> simp [State.updEs]

/-! ### The updates made of these -/

@[simp] theorem State.updCur_machine (s : State) (f : Thread → Thread) : (s.updCur f).machine = s.machine :=
  s.updThr_machine _ f
@[simp] theorem State.setX_machine (s : State) (d : Reg) (v : Word) : (s.setX d v).machine = s.machine :=
  s.updCur_machine _
@[simp] theorem State.jumpThr_machine (s : State) (t : Nat) (v : Word) : (s.jumpThr t v).machine = s.machine :=
  s.updThr_machine t _
@[simp] theorem State.jump_machine (s : State) (v : Word) : (s.jump v).machine = s.machine := s.jumpThr_machine _ v
@[simp] theorem State.memWrite_machine (s : State) (a : Word) (n : Nat) (v : Word) :
    (s.memWrite a n v).machine = s.machine := rfl
@[simp] theorem State.takeException_machine (s : State) (code info vector : Word) :
    (s.takeException code info vector).machine = s.machine := by simp [State.takeException]
@[simp] theorem State.raise_machine (s : State) (e : ExcType) (info : Word) : (s.raise e info).machine = s.machine :=
  s.takeException_machine _ info _
@[simp] theorem State.kernelCall_machine (s : State) (info : Word) : (s.kernelCall info).machine = s.machine :=
  s.takeException_machine _ info _
@[simp] theorem State.kernelReturn_machine (s : State) : s.kernelReturn.machine = s.machine := by
  simp [State.kernelReturn]
@[simp] theorem State.await_machine (s : State) (ev : Bool) : (s.await ev).machine = s.machine := s.updCur_machine _
@[simp] theorem State.pause_machine (s : State) : s.pause.machine = s.machine := s.await_machine false
@[simp] theorem State.clearEeble_machine (s : State) : s.clearEeble.machine = s.machine := s.updCur_machine _
@[simp] theorem State.startThreads_machine (s : State) (ts : List Nat) : (s.startThreads ts).machine = s.machine := rfl
@[simp] theorem State.release_machine (s : State) (ts : List Nat) : (s.release ts).machine = s.machine := rfl

@[simp] theorem State.clearWaiter_machine (s : State) (t : Nat) : (s.clearWaiter t).machine = s.machine := by
  simp [State.machine, State.clearWaiter, Function.comp_def]
@[simp] theorem State.detach_machine (s : State) (t : Nat) : (s.detach t).machine = s.machine := by
  simp [State.machine, State.detach_eq, Function.comp_def]
@[simp] theorem State.resumeThr_machine (s : State) (t : Nat) : (s.resumeThr t).machine = s.machine := by
  simp [State.resumeThr]

@[simp] theorem State.freeSlaves_machine (s : State) (k : Nat) : (s.freeSlaves k).machine = s.machine := by
  have hlen := s.freeSlaves_length k
  rw [State.freeSlaves_eq] at hlen ⊢
  simpa [State.machine, State.withSyncN] using hlen

@[simp] theorem State.debugEnter_machine (s : State) (c : Word) : (s.debugEnter c).machine = s.machine := by
  rw [State.debugEnter, State.jumpThr_machine, State.updThr_machine]
  exact s.detach_machine 0
@[simp] theorem State.eventEnter_machine (s : State) (t : Nat) (r : ResRef) :
    (s.eventEnter t r).machine = s.machine := by simp [State.eventEnter]
@[simp] theorem State.interruptEnter_machine (s : State) (t : Nat) (r : ResRef) :
    (s.interruptEnter t r).machine = s.machine := by simp [State.interruptEnter]

/-! ### Allocation (R355) -/

@[simp] theorem State.allocTimer_machine (s : State) (k : Nat) : (s.allocTimer k).machine = s.machine :=
  s.updTimer_machine k _
@[simp] theorem State.allocChan_machine (s : State) (k : Nat) : (s.allocChan k).machine = s.machine :=
  s.updChan_machine k _
@[simp] theorem State.allocSync_machine (s : State) (k : Nat) : (s.allocSync k).machine = s.machine :=
  s.updSync_machine k _
@[simp] theorem State.allocLock_machine (s : State) (k : Nat) : (s.allocLock k).machine = s.machine :=
  s.updLock_machine k _
@[simp] theorem State.allocThread_machine (s : State) (k : Nat) (syn : Option Nat) :
    (s.allocThread k syn).machine = s.machine := s.updThr_machine k _

/-! ### What the shared operations answer -/

section Answers

variable {s t : State}

@[simp] theorem next_keepsMachine (h : t.machine = s.machine) : KeepsMachine s (.next t) := h
@[simp] theorem refused_keepsMachine (r : Refusal) : KeepsMachine s (.refused r) := trivial

theorem ite_keepsMachine {c : Prop} [Decidable c] {a b : Result} (ha : KeepsMachine s a) (hb : KeepsMachine s b) :
    KeepsMachine s (if c then a else b) := by
  split
  · exact ha
  · exact hb

@[simp] theorem writeReg_keepsMachine {d : Reg} {v : Word} (h : t.machine = s.machine) :
    KeepsMachine s (writeReg d v t) := by simp [writeReg, h]
@[simp] theorem raised_keepsMachine {e : ExcType} {info : Word} (h : t.machine = s.machine) :
    KeepsMachine s (raised e info t) := by simp [raised, h]
@[simp] theorem badResource_keepsMachine {r : Word} (h : t.machine = s.machine) :
    KeepsMachine s (badResource r t) := raised_keepsMachine h

theorem writePair_keepsMachine (d e : Reg) (v w : Word) (s : State) : KeepsMachine s (writePair d e v w s) :=
  ite_keepsMachine (State.setX_machine _ d _) (by simp)
theorem loadReg_keepsMachine (d : Reg) (a : Word) (n : Nat) (ext : Word → Word) (s : State) :
    KeepsMachine s (loadReg d a n ext s) :=
  ite_keepsMachine (writeReg_keepsMachine rfl) (raised_keepsMachine rfl)
theorem storeVal_keepsMachine (a : Word) (n : Nat) (v : Word) (s : State) : KeepsMachine s (storeVal a n v s) :=
  ite_keepsMachine (s.memWrite_machine a n v) (raised_keepsMachine rfl)
theorem loadThen_keepsMachine (a : Word) {k : Word → State → Result} (h : ∀ v, KeepsMachine s (k v s)) :
    KeepsMachine s (loadThen a k s) := ite_keepsMachine (h _) (raised_keepsMachine rfl)

theorem branchIf_keepsMachine (c : Bool) (v : Word) (s : State) : KeepsMachine s (branchIf c v s) := by
  cases c
  · exact rfl
  · exact s.jump_machine v
theorem call_keepsMachine (v : Word) (s : State) : KeepsMachine s (call v s) := by simp [call]

@[simp] theorem paused_keepsMachine (h : t.machine = s.machine) : KeepsMachine s (paused t) := by simp [paused, h]
@[simp] theorem pauseOnPort_keepsMachine (n : Nat) (h : t.machine = s.machine) : KeepsMachine s (pauseOnPort n t) := by
  simp [pauseOnPort, h]
@[simp] theorem pauseOnTimer_keepsMachine (n : Nat) (s : State) : KeepsMachine s (pauseOnTimer n s) := by
  simp [pauseOnTimer]
@[simp] theorem pauseOnChanIn_keepsMachine (n : Nat) (s : State) : KeepsMachine s (pauseOnChanIn n s) := by
  simp [pauseOnChanIn]
@[simp] theorem pauseOnChanOut_keepsMachine (n : Nat) (s : State) : KeepsMachine s (pauseOnChanOut n s) := by
  simp [pauseOnChanOut]

/-! The common checks (R354): what follows a check keeps the machine, and so does the trap. -/

theorem withPort_keepsMachine (r : Word) {k : Nat → State → Result} (h : ∀ n, KeepsMachine s (k n s)) :
    KeepsMachine s (withPort r k s) := by
  unfold withPort
  split
  · exact h _
  · exact badResource_keepsMachine rfl
theorem withChan_keepsMachine (r : Word) {k : Nat → State → Result} (h : ∀ n, KeepsMachine s (k n s)) :
    KeepsMachine s (withChan r k s) := by
  unfold withChan
  split
  · exact h _
  · exact badResource_keepsMachine rfl
theorem withSync_keepsMachine (r : Word) {k : Nat → State → Result} (h : ∀ n, KeepsMachine s (k n s)) :
    KeepsMachine s (withSync r k s) := by
  unfold withSync
  split
  · exact h _
  · exact badResource_keepsMachine rfl
theorem withThread_keepsMachine (r : Word) {k : Nat → State → Result} (h : ∀ n, KeepsMachine s (k n s)) :
    KeepsMachine s (withThread r k s) := by
  unfold withThread
  split
  · exact h _
  · exact badResource_keepsMachine rfl
theorem withEventRes_keepsMachine (r : Word) {k : ResRef → State → Result} (h : ∀ q, KeepsMachine s (k q s)) :
    KeepsMachine s (withEventRes r k s) := by
  unfold withEventRes
  split
  · exact h _
  · exact h _
  · exact h _
  · exact badResource_keepsMachine rfl
theorem withPausedThread_keepsMachine (r : Word) {k : Nat → State → Result} (h : ∀ n, KeepsMachine s (k n s)) :
    KeepsMachine s (withPausedThread r k s) :=
  withThread_keepsMachine r fun n => ite_keepsMachine (h n) (badResource_keepsMachine rfl)
theorem withCount_keepsMachine (r : Word) (c : Nat) {k : Nat → State → Result} (h : ∀ n, KeepsMachine s (k n s)) :
    KeepsMachine s (withCount r c k s) :=
  withPort_keepsMachine r fun n => ite_keepsMachine (h n) (badResource_keepsMachine rfl)
theorem withDest_keepsMachine (r : Word) (n : Nat) {k : State → Result} (h : KeepsMachine s (k s)) :
    KeepsMachine s (withDest r n k s) := ite_keepsMachine h (raised_keepsMachine rfl)
theorem withHead_keepsMachine (r : Word) {k : Nat → Token → State → Result} (h : ∀ n t, KeepsMachine s (k n t s)) :
    KeepsMachine s (withHead r k s) := by
  refine withChan_keepsMachine r fun n => ?_
  split
  · exact pauseOnChanIn_keepsMachine n s
  · exact h n _
theorem unlessPrivileged_keepsMachine (r : Word) (tok : Token) {k : State → Result} (h : KeepsMachine s (k s)) :
    KeepsMachine s (unlessPrivileged r tok k s) := by
  unfold unlessPrivileged
  split
  · exact raised_keepsMachine rfl
  · exact h
theorem inDebug_keepsMachine {k : State → Result} (h : KeepsMachine s (k s)) : KeepsMachine s (inDebug k s) :=
  ite_keepsMachine h (raised_keepsMachine rfl)

theorem allocate_keepsMachine (d : Reg) (free : Option Nat) {alloc : State → Nat → State} (ident : Nat → Word)
    (h : ∀ k, (alloc s k).machine = s.machine) : KeepsMachine s (allocate d free alloc ident s) := by
  cases free with
  | none => exact writeReg_keepsMachine rfl
  | some k => exact writeReg_keepsMachine (h k)

/-! Channels, ports and locks. -/

theorem sendTokens_keepsMachine (n : Nat) (ts : List Token) (s : State) : KeepsMachine s (sendTokens n ts s) :=
  ite_keepsMachine (s.updChan_machine n _) (pauseOnChanOut_keepsMachine n s)
theorem withOutChan_keepsMachine (r : Word) {k : Nat → State → Result} (h : ∀ n, KeepsMachine s (k n s)) :
    KeepsMachine s (withOutChan r k s) :=
  withChan_keepsMachine r fun n => withDest_keepsMachine r n (h n)
theorem outControl_keepsMachine (r : Word) (tok : Token) (s : State) : KeepsMachine s (outControl r tok s) :=
  withChan_keepsMachine r fun n => ite_keepsMachine (badResource_keepsMachine rfl) <|
    withDest_keepsMachine r n <| ite_keepsMachine (raised_keepsMachine rfl) <|
      unlessPrivileged_keepsMachine r tok (sendTokens_keepsMachine n [tok] s)
theorem checkToken_keepsMachine (r v : Word) (s : State) : KeepsMachine s (checkToken r v s) :=
  withHead_keepsMachine r fun n tok => ite_keepsMachine
    (unlessPrivileged_keepsMachine r tok (s.updChan_machine n _)) (badResource_keepsMachine rfl)
theorem inChan_keepsMachine (d : Reg) (r : Word) (n : Nat) (s : State) : KeepsMachine s (inChan d r n s) :=
  ite_keepsMachine (badResource_keepsMachine rfl) <| ite_keepsMachine (pauseOnChanIn_keepsMachine n s) <|
    writeReg_keepsMachine (s.updChan_machine n _)

theorem outPort_keepsMachine (r : Word) (n : Nat) (v : Word) {f : Port → Port} {k : State → State}
    (hf : ∀ p, (f p).id = p.id) (hk : ∀ u, (k u).machine = u.machine) : KeepsMachine s (outPort r n v f k s) :=
  ite_keepsMachine (pauseOnPort_keepsMachine n rfl) <| ite_keepsMachine (badResource_keepsMachine rfl) <|
    next_keepsMachine (by simp [hf, hk])
theorem inPort_keepsMachine (r : Word) (n : Nat) {f : Port → Port} {k : Word → State → State}
    (hf : ∀ p, (f p).id = p.id) (hk : ∀ v u, (k v u).machine = u.machine) : KeepsMachine s (inPort r n f k s) :=
  ite_keepsMachine (badResource_keepsMachine rfl) <|
    ite_keepsMachine (pauseOnPort_keepsMachine n (s.updPort_machine n (hf _))) <|
    ite_keepsMachine (pauseOnPort_keepsMachine n (s.updPort_machine n (hf _))) <|
    next_keepsMachine (by simp [hf, hk])

theorem outLock_keepsMachine (n : Nat) (s : State) : KeepsMachine s (outLock n s) := by
  unfold outLock
  dsimp only
  split <;> simp
theorem inLock_keepsMachine (d : Reg) (r : Word) (n : Nat) (s : State) : KeepsMachine s (inLock d r n s) :=
  ite_keepsMachine (writeReg_keepsMachine (s.updLock_machine n _)) <| ite_keepsMachine (paused_keepsMachine rfl) <|
    paused_keepsMachine (s.updLock_machine n _)
theorem inTimer_keepsMachine (d : Reg) (n : Nat) (s : State) : KeepsMachine s (inTimer d n s) :=
  ite_keepsMachine (writeReg_keepsMachine rfl) (pauseOnTimer_keepsMachine n s)

/-! Modes, events and synchronisers. -/

/-- SETC and SETCI change one resource, a port in all but its identifier (R357, R452). -/
theorem setControl_keepsMachine (r v : Word) (s : State) : KeepsMachine s (setControl r v s) := by
  unfold setControl
  split
  case h_1 m n _ _ =>
    refine ite_keepsMachine ?_ (badResource_keepsMachine rfl)
    split
    · next p hp => exact s.updPort_machine n (f := fun _ => p) (Port.setMode_id hp)
    · exact badResource_keepsMachine rfl
  case h_2 m n _ _ =>
    refine ite_keepsMachine ?_ (badResource_keepsMachine rfl)
    split <;> simp
  case h_3 => split <;> simp
  case h_4 => split <;> simp
  case h_5 => exact badResource_keepsMachine rfl

theorem initReg_keepsMachine (i : Reg) (v t : Word) (s : State) : KeepsMachine s (initReg i v t s) :=
  withPausedThread_keepsMachine t fun n => s.updThr_machine n _
theorem setEnable_keepsMachine (r : Word) (b : Bool) (s : State) : KeepsMachine s (setEnable r b s) :=
  withEventRes_keepsMachine r fun q => s.updEs_machine q _
theorem waitForEvent_keepsMachine (s : State) : KeepsMachine s (waitForEvent s) := by simp [waitForEvent]
theorem stopMaster_keepsMachine (k : Nat) (join : Bool) (s : State) : KeepsMachine s (s.stopMaster k join) :=
  ite_keepsMachine (refused_keepsMachine _) ((s.clearEeble.updSync_machine k _).trans s.clearEeble_machine)

end Answers

/-! ### Instructions whose meaning has several branches -/

/-- GETR allocates one resource, or answers 0 (R355). -/
theorem execGetr_keepsMachine (d : Reg) (us : Us) (s : State) : KeepsMachine s (execGetr d us s) := by
  unfold execGetr
  split
  · exact allocate_keepsMachine d _ _ s.allocTimer_machine
  · exact allocate_keepsMachine d _ _ s.allocChan_machine
  · exact allocate_keepsMachine d _ _ s.allocSync_machine
  · exact allocate_keepsMachine d _ _ fun k => s.allocThread_machine k none
  · exact allocate_keepsMachine d _ _ s.allocLock_machine
  · exact writeReg_keepsMachine rfl

/-- FREER takes a resource out of use, and none away (R356). -/
theorem execFreer_keepsMachine (r : Reg) (s : State) : KeepsMachine s (execFreer r s) := by
  unfold execFreer
  split
  case h_1 n _ => exact s.updTimer_machine n _
  case h_2 n _ => exact s.updSync_machine n _
  case h_3 n _ => exact s.updLock_machine n _
  case h_4 n _ => exact ite_keepsMachine (s.updThr_machine n _) (badResource_keepsMachine rfl)
  case h_5 n _ =>
    exact ite_keepsMachine (badResource_keepsMachine rfl) <|
      ite_keepsMachine (pauseOnChanOut_keepsMachine n s) (s.updChan_machine n _)
  case h_6 => exact badResource_keepsMachine rfl

theorem execTsetmr_keepsMachine (d src : Reg) (s : State) : KeepsMachine s (execTsetmr d src s) := by
  unfold execTsetmr
  split
  · exact refused_keepsMachine _
  · exact ite_keepsMachine (s.updThr_machine _ _) (badResource_keepsMachine rfl)

theorem execGetst_keepsMachine (d r : Reg) (s : State) : KeepsMachine s (execGetst d r s) :=
  withSync_keepsMachine _ fun k => allocate_keepsMachine d _ _ fun t => by simp

theorem execTstart_keepsMachine (r : Reg) (s : State) : KeepsMachine s (execTstart r s) :=
  withPausedThread_keepsMachine _ fun n => ite_keepsMachine (by simp) (raised_keepsMachine rfl)

/-- SSYNC frees or releases the slaves, refuses, or stops the thread (R380). -/
theorem execSsync_keepsMachine (s : State) : KeepsMachine s (execSsync s) := by
  unfold execSsync
  split
  · exact refused_keepsMachine _
  · next k _ =>
    refine ite_keepsMachine ?_ (ite_keepsMachine (refused_keepsMachine _) s.clearEeble_machine)
    have hslaves : (if (s.sync k).mjoin then s.clearEeble.freeSlaves k
        else s.clearEeble.release (s.sync k).slaves).machine = s.machine := by split <;> simp
    exact (State.updSync_machine _ k _).trans hslaves

theorem execMsync_keepsMachine (r : Reg) (s : State) : KeepsMachine s (execMsync r s) := by
  refine withSync_keepsMachine _ fun k => ite_keepsMachine ?_ (stopMaster_keepsMachine k false s)
  split
  · exact raised_keepsMachine rfl
  · simp

theorem execMjoin_keepsMachine (r : Reg) (s : State) : KeepsMachine s (execMjoin r s) :=
  withSync_keepsMachine _ fun k => ite_keepsMachine (by simp) (stopMaster_keepsMachine k true s)

theorem execSetd_keepsMachine (r src : Reg) (s : State) : KeepsMachine s (execSetd r src s) := by
  unfold execSetd
  dsimp only
  split
  case h_1 n _ => exact s.updPort_machine n rfl
  case h_2 n _ => exact s.updTimer_machine n _
  case h_3 n _ => exact ite_keepsMachine (s.updChan_machine n _) (badResource_keepsMachine rfl)
  case h_4 n _ => exact ite_keepsMachine (badResource_keepsMachine rfl) (s.updClk_machine n _)
  case h_5 => exact badResource_keepsMachine rfl

theorem execGetd_keepsMachine (d r : Reg) (s : State) : KeepsMachine s (execGetd d r s) := by
  unfold execGetd
  split <;> simp

theorem execOut_keepsMachine (r src : Reg) (s : State) : KeepsMachine s (execOut r src s) := by
  unfold execOut
  split
  · exact withOutChan_keepsMachine _ fun n => sendTokens_keepsMachine n _ s
  · exact outLock_keepsMachine _ s
  · exact outPort_keepsMachine _ _ _ (fun _ => rfl) fun _ => rfl
  · exact badResource_keepsMachine rfl

theorem execIn_keepsMachine (d r : Reg) (s : State) : KeepsMachine s (execIn d r s) := by
  unfold execIn
  split
  · exact inChan_keepsMachine d _ _ s
  · exact inLock_keepsMachine d _ _ s
  · exact inTimer_keepsMachine d _ s
  · exact inPort_keepsMachine _ _ (fun _ => rfl) fun v u => u.setX_machine d v
  · exact badResource_keepsMachine rfl

theorem execInt_keepsMachine (d r : Reg) (s : State) : KeepsMachine s (execInt d r s) :=
  withHead_keepsMachine _ fun n _ =>
    ite_keepsMachine (badResource_keepsMachine rfl) (writeReg_keepsMachine (s.updChan_machine n _))

theorem execInct_keepsMachine (d r : Reg) (s : State) : KeepsMachine s (execInct d r s) :=
  withHead_keepsMachine _ fun n tok => ite_keepsMachine
    (unlessPrivileged_keepsMachine _ tok (writeReg_keepsMachine (s.updChan_machine n _))) (badResource_keepsMachine rfl)

theorem execTestwct_keepsMachine (d r : Reg) (s : State) : KeepsMachine s (execTestwct d r s) :=
  withChan_keepsMachine _ fun n => ite_keepsMachine (writeReg_keepsMachine rfl) <|
    ite_keepsMachine (writeReg_keepsMachine rfl) (pauseOnChanIn_keepsMachine n s)

theorem execSetclk_keepsMachine (r src : Reg) (s : State) : KeepsMachine s (execSetclk r src s) := by
  unfold execSetclk
  dsimp only
  split
  case h_1 n _ => exact ite_keepsMachine (s.updPort_machine n rfl) (badResource_keepsMachine rfl)
  case h_2 n _ => exact ite_keepsMachine (s.updClk_machine n _) (badResource_keepsMachine rfl)
  case h_3 => exact badResource_keepsMachine rfl

theorem execSetrdy_keepsMachine (r src : Reg) (s : State) : KeepsMachine s (execSetrdy r src s) := by
  unfold execSetrdy
  dsimp only
  split
  case h_1 n _ => exact ite_keepsMachine (s.updClk_machine n _) (badResource_keepsMachine rfl)
  case h_2 n _ => exact ite_keepsMachine (s.updPort_machine n rfl) (badResource_keepsMachine rfl)
  case h_3 => exact badResource_keepsMachine rfl

theorem execSetpt_keepsMachine (r src : Reg) (s : State) : KeepsMachine s (execSetpt r src s) :=
  withPort_keepsMachine _ fun n => ite_keepsMachine (pauseOnPort_keepsMachine n rfl) (s.updPort_machine n rfl)

theorem execSettw_keepsMachine (r src : Reg) (s : State) : KeepsMachine s (execSettw r src s) :=
  withPort_keepsMachine _ fun n => ite_keepsMachine (s.updPort_machine n rfl) (badResource_keepsMachine rfl)

theorem execEndin_keepsMachine (d r : Reg) (s : State) : KeepsMachine s (execEndin d r s) :=
  withPort_keepsMachine _ fun n =>
    ite_keepsMachine (writeReg_keepsMachine (s.updPort_machine n rfl)) (badResource_keepsMachine rfl)

theorem execKrestsp_keepsMachine (u16 : BitVec 16) (s : State) : KeepsMachine s (execKrestsp u16 s) := by
  unfold execKrestsp
  dsimp only
  exact loadThen_keepsMachine _ fun v => next_keepsMachine (by simp)

/-- CLRE disables the events of every resource and takes none away (R536). -/
theorem execClre_keepsMachine (s : State) : KeepsMachine s (execClre s) := by
  simp [execClre, KeepsMachine, State.machine, State.updCur, State.updThr, Function.comp_def]

theorem execDret_keepsMachine (s : State) : KeepsMachine s (execDret s) :=
  inDebug_keepsMachine <| next_keepsMachine <| (State.jumpThr_machine _ 0 _).trans (State.updThr_machine _ 0 _)

theorem execDgetreg_keepsMachine (src : Reg) (s : State) : KeepsMachine s (execDgetreg src s) := by
  refine inDebug_keepsMachine ?_
  split
  · exact writeReg_keepsMachine rfl
  · exact writeReg_keepsMachine rfl

theorem execGetps_keepsMachine (d r : Reg) (s : State) : KeepsMachine s (execGetps d r s) := by
  unfold execGetps
  split
  · exact writeReg_keepsMachine rfl
  · exact raised_keepsMachine rfl

theorem execSetps_keepsMachine (r src : Reg) (s : State) : KeepsMachine s (execSetps r src s) := by
  unfold execSetps
  split
  · exact ite_keepsMachine (raised_keepsMachine rfl) (next_keepsMachine rfl)
  · exact raised_keepsMachine rfl

/-! ### Every instruction -/

/-- Each instruction is a use of the shared operations, which keep the machine. -/
theorem exec_keepsMachine (i : Instr) (s : State) : KeepsMachine s (exec i s) := by
  cases i with unfold exec
  -- a register is written
  | ldawsp | ldawdp | ldc | ldawcp | ldapf | ldapb | ldawfi | ldawbi | ldawf | ldawb | lda16f | lda16b
  | add | addi | sub | subi | neg | eq | eqi | lss | lsu | and | or | xor | not | andnot
  | shl | shli | shr | shri | ashr | ashri | mul | mkmsk | mkmski | sext | sexti | zext | zexti | bitrev | byterev | clz
  | extsp | extdp | setsp | setdp | setcp | getid | getsr | getet | geted | getkep | getksp | crc =>
    exact writeReg_keepsMachine rfl
  | ladd | lsub | lmul | maccs | maccu | crc8 => exact writePair_keepsMachine _ _ _ _ s
  | divs | divu | rems | remu => exact ite_keepsMachine (raised_keepsMachine rfl) (writeReg_keepsMachine rfl)
  | ldivu => exact ite_keepsMachine (raised_keepsMachine rfl) (writePair_keepsMachine _ _ _ _ s)
  -- loads and stores
  | ldwsp | ldwdp | ldwcp | ldwcpl | ldwi | ldw | ld16s | ld8u => exact loadReg_keepsMachine _ _ _ _ s
  | stwsp | stwdp | stwi | stw | st16 | st8 | stspc | stssr | stsed | stet => exact storeVal_keepsMachine _ _ _ s
  | ldspc | ldssr | ldsed | ldet => exact loadThen_keepsMachine _ fun v => s.updCur_machine _
  | krestsp => exact execKrestsp_keepsMachine _ s
  | kentsp => exact ite_keepsMachine (next_keepsMachine (by simp)) (raised_keepsMachine rfl)
  -- transfers of control
  | brft | brff | brbt | brbf => exact branchIf_keepsMachine _ _ s
  | brfu | brbu | bru | bau => exact s.jump_machine _
  | blrf | blrb | bla => exact call_keepsMachine _ s
  | blacp | blat => exact loadThen_keepsMachine _ fun v => call_keepsMachine v s
  | entsp =>
    exact ite_keepsMachine (next_keepsMachine rfl) <|
      ite_keepsMachine (next_keepsMachine (by simp)) (raised_keepsMachine rfl)
  | retsp =>
    exact ite_keepsMachine (s.jump_machine _) <| loadThen_keepsMachine _ fun v => next_keepsMachine (by simp)
  | ecallt => exact ite_keepsMachine (next_keepsMachine rfl) (raised_keepsMachine rfl)
  | ecallf => exact ite_keepsMachine (raised_keepsMachine rfl) (next_keepsMachine rfl)
  | kcall | kcalli => exact s.kernelCall_machine _
  | kret => exact s.kernelReturn_machine
  -- resources, threads and synchronisers
  | getr => exact execGetr_keepsMachine _ _ s
  | freer => exact execFreer_keepsMachine _ s
  | setc | setci => exact setControl_keepsMachine _ _ s
  | tinitpc => exact withPausedThread_keepsMachine _ fun n => s.updThr_machine n _
  | tinitsp | tinitdp | tinitcp | tinitlr => exact initReg_keepsMachine _ _ _ s
  | tsetr => exact withThread_keepsMachine _ fun n => s.updThr_machine n _
  | tsetmr => exact execTsetmr_keepsMachine _ _ s
  | getst => exact execGetst_keepsMachine _ _ s
  | tstart => exact execTstart_keepsMachine _ s
  | ssync => exact execSsync_keepsMachine s
  | msync => exact execMsync_keepsMachine _ s
  | mjoin => exact execMjoin_keepsMachine _ s
  | freet => exact s.updCur_machine _
  -- channel ends and locks
  | setd => exact execSetd_keepsMachine _ _ s
  | getd => exact execGetd_keepsMachine _ _ s
  | setn => exact withChan_keepsMachine _ fun n => s.updChan_machine n _
  | getn => exact withChan_keepsMachine _ fun n => writeReg_keepsMachine rfl
  | outt => exact withOutChan_keepsMachine _ fun n => sendTokens_keepsMachine n _ s
  | outct | outcti => exact outControl_keepsMachine _ _ s
  | int => exact execInt_keepsMachine _ _ s
  | inct => exact execInct_keepsMachine _ _ s
  | chkct | chkcti => exact checkToken_keepsMachine _ _ s
  | out => exact execOut_keepsMachine _ _ s
  | in_ => exact execIn_keepsMachine _ _ s
  | testct => exact withHead_keepsMachine _ fun n tok => writeReg_keepsMachine rfl
  | testwct => exact execTestwct_keepsMachine _ _ s
  | testlcl =>
    exact withChan_keepsMachine _ fun n => ite_keepsMachine (writeReg_keepsMachine rfl) (badResource_keepsMachine rfl)
  -- ports and clock blocks
  | setclk => exact execSetclk_keepsMachine _ _ s
  | setrdy => exact execSetrdy_keepsMachine _ _ s
  | outshr =>
    exact withPort_keepsMachine _ fun n => outPort_keepsMachine _ n _ (fun _ => rfl) fun u => u.setX_machine _ _
  | inshr =>
    exact withPort_keepsMachine _ fun n => inPort_keepsMachine _ n (fun _ => rfl) fun v u => u.setX_machine _ _
  | peek | getts => exact withPort_keepsMachine _ fun n => writeReg_keepsMachine rfl
  | setpt => exact execSetpt_keepsMachine _ _ s
  | clrpt => exact withPort_keepsMachine _ fun n => s.updPort_machine n rfl
  | settw => exact execSettw_keepsMachine _ _ s
  | setpsc => exact withCount_keepsMachine _ _ fun n => s.updPort_machine n rfl
  | endin => exact execEndin_keepsMachine _ _ s
  | outpw =>
    exact withCount_keepsMachine _ _ fun n => outPort_keepsMachine _ n _ (fun _ => rfl) fun _ => rfl
  | inpw =>
    exact withCount_keepsMachine _ _ fun n =>
      inPort_keepsMachine _ n (Port.beginPartial_id s.tid _) fun v u => u.setX_machine _ v
  | syncr =>
    exact withPort_keepsMachine _ fun n => ite_keepsMachine (pauseOnPort_keepsMachine n rfl) (next_keepsMachine rfl)
  -- events and the status register
  | setsr | clrsr => exact ite_keepsMachine (refused_keepsMachine _) (s.updCur_machine _)
  | setv | setev => exact withEventRes_keepsMachine _ fun q => s.updEs_machine q _
  | eet | eef | eeu | edu => exact setEnable_keepsMachine _ _ s
  | clre => exact execClre_keepsMachine s
  | waitet => exact ite_keepsMachine (next_keepsMachine rfl) (waitForEvent_keepsMachine s)
  | waitef => exact ite_keepsMachine (waitForEvent_keepsMachine s) (next_keepsMachine rfl)
  | waiteu => exact waitForEvent_keepsMachine s
  | setkep => exact s.updCur_machine _
  -- debug and processor state
  | dcall => exact ite_keepsMachine (s.debugEnter_machine _) (refused_keepsMachine _)
  | dret => exact execDret_keepsMachine s
  | dentsp => exact inDebug_keepsMachine (State.setX_machine _ sp _)
  | drestsp => exact inDebug_keepsMachine (writeReg_keepsMachine rfl)
  | dgetreg => exact execDgetreg_keepsMachine _ s
  | getps => exact execGetps_keepsMachine _ _ s
  | setps => exact execSetps_keepsMachine _ _ s

/-! ### The agents besides the threads -/

/-- What each move of a list keeps, all of them keep. -/
theorem foldl_machine {α : Type} {f : State → α → State} (h : ∀ s a, (f s a).machine = s.machine) (l : List α)
    (s : State) : (l.foldl f s).machine = s.machine := by
  induction l generalizing s with
  | nil => rfl
  | cons a l ih => exact (ih (f s a)).trans (h s a)

/-- A clock cycle keeps the port of each number, in all but its state (R462, R70). -/
theorem State.cyclePorts_ids (s : State) (sel : Port → Bool) :
    (s.cyclePorts sel).ports.map Port.id = s.ports.map Port.id := by
  have hlen : (s.cyclePorts sel).ports.length = s.ports.length := by simp [State.cyclePorts]
  refine List.ext_getElem (by simp [hlen]) fun n _ h => ?_
  have hn : n < s.ports.length := by simpa using h
  have hid : ((s.cyclePorts sel).port n).id = (s.port n).id := by
    rw [State.cyclePorts_port hn]
    split
    · exact Port.cycle_id _ _ _
    · rfl
  simpa [State.port, hn, hlen] using hid

@[simp] theorem State.cyclePorts_machine (s : State) (sel : Port → Bool) :
    (s.cyclePorts sel).machine = s.machine :=
  congrArg (fun ids => (s.plat, s.threads.length, s.timers.length, s.chans.length, s.syncs.length, s.locks.length,
    s.clks.length, ids)) (s.cyclePorts_ids sel)

theorem State.refClocks_machine (s : State) : s.refClocks.1.machine = s.machine := by
  simp [State.machine, State.refClocks]

@[simp] theorem State.refEdge_machine (s : State) : s.refEdge.machine = s.machine :=
  (State.cyclePorts_machine _ _).trans (State.refClocks_machine _)

@[simp] theorem State.clockLook_machine (s : State) (k : Nat) : (s.clockLook k).machine = s.machine := by
  unfold State.clockLook
  dsimp only
  split
  · rfl
  · split
    · split <;> simp
    · rfl

@[simp] theorem State.deliver_machine (s : State) (c : Nat) : (s.deliver c).machine = s.machine := by
  unfold State.deliver
  split
  · rfl
  · split
    · split <;> simp
    · rfl

@[simp] theorem State.deliverNext_machine (s : State) (c : Nat) : (s.deliverNext c).machine = s.machine := by
  rw [State.deliverNext_eq]
  exact s.deliver_machine c

@[simp] theorem State.envTake_machine (s : State) (c : Nat) : (s.envTake c).machine = s.machine := by
  unfold State.envTake
  split
  · rfl
  · split <;> simp

@[simp] theorem State.envToken_machine (s : State) (c : Nat) (tok : Token) :
    (s.envToken c tok).machine = s.machine := by
  unfold State.envToken
  split
  · rfl
  · split <;> simp

@[simp] theorem State.envPins_machine (s : State) (n : Nat) (v : Word) : (s.envPins n v).machine = s.machine :=
  s.updPort_machine n rfl

/-- A round of the agents: an edge of the reference clock, then every clock block, delivery and receiver in turn. -/
@[simp] theorem State.agentsRound_machine (s : State) : s.agentsRound.machine = s.machine := by
  simp [State.agentsRound, foldl_machine State.clockLook_machine, foldl_machine State.deliverNext_machine,
    foldl_machine State.envTake_machine]

/-! ### The moves of a thread, and a step -/

@[simp] theorem State.fetchParcel_machine (s : State) (t a : Nat) : (s.fetchParcel t a).2.machine = s.machine := by
  unfold State.fetchParcel
  split <;> rfl

theorem State.entered_machine (s : State) (t len : Nat) : (s.entered t len).machine = s.machine :=
  State.updThr_machine _ t _

/-- What an issued instruction does it does to a state of the machine it is fetched on (R651 c). -/
theorem State.exec_entered_keepsMachine {s f : State} (i : Instr) (t len : Nat) (h : f.machine = s.machine) :
    KeepsMachine s (exec i (f.entered t len)) :=
  .of_machine_eq ((f.entered_machine t len).trans h) (exec_keepsMachine i _)

theorem State.issue_keepsMachine (s : State) (t : Nat) : KeepsMachine s (s.issue t) := by
  unfold State.issue
  dsimp only
  set s0 : State := { s with tid := t, pcThis := (s.thr t).pc }
  have hfirst : (s0.fetchParcel t (s.thr t).pc.toNat).2.machine = s.machine := s0.fetchParcel_machine t _
  have hsecond (a : Nat) : ((s0.fetchParcel t (s.thr t).pc.toNat).2.fetchParcel t a).2.machine = s.machine :=
    (State.fetchParcel_machine _ t a).trans hfirst
  refine ite_keepsMachine (ite_keepsMachine (refused_keepsMachine _) (raised_keepsMachine rfl)) (ite_keepsMachine ?_ ?_)
  · refine ite_keepsMachine (raised_keepsMachine hfirst) ?_
    split
    · exact raised_keepsMachine (hsecond _)
    · exact State.exec_entered_keepsMachine _ t _ (hsecond _)
  · split
    · exact raised_keepsMachine hfirst
    · exact State.exec_entered_keepsMachine _ t _ hfirst

theorem State.serveDebug_machine (s : State) : s.serveDebug.machine = s.machine := State.debugEnter_machine _ _

theorem State.threadMove_keepsMachine {s : State} (t : Nat) {k : State → Result} (h : KeepsMachine s (k s)) :
    KeepsMachine s (s.threadMove t k) := ite_keepsMachine s.serveDebug_machine h

theorem State.autoEnter_machine (s : State) (t : Nat) (r : ResRef) : (s.autoEnter t r).machine = s.machine := by
  have hentry : (if s.interruptOpen t r then s.interruptEnter t r else s.eventEnter t r).machine = s.machine := by
    split <;> simp
  exact hentry

theorem State.autoThread_keepsMachine (s : State) (t : Nat) : KeepsMachine s (s.autoThread t) := by
  refine State.threadMove_keepsMachine t ?_
  split
  · exact s.autoEnter_machine t _
  · exact ite_keepsMachine (.of_machine_eq (s.resumeThr_machine t) (State.issue_keepsMachine _ t)) <|
      ite_keepsMachine (s.issue_keepsMachine t) (next_keepsMachine rfl)

/-- The fixed schedule moves a thread or the other agents (log 14). -/
theorem State.auto_keepsMachine (s : State) : KeepsMachine s s.auto := by
  refine ite_keepsMachine ?_ (State.agentsRound_machine _)
  split
  · exact .of_machine_eq rfl (State.autoThread_keepsMachine _ _)
  · exact s.agentsRound_machine

/-- Every move of the agenda, open or not. -/
theorem perform_keepsMachine (m : Move) (s : State) : KeepsMachine s (perform s m) := by
  cases m with unfold perform
  | issue t =>
    exact State.threadMove_keepsMachine t (ite_keepsMachine (s.issue_keepsMachine t) (next_keepsMachine rfl))
  | event t r | interrupt t r | resume t =>
    refine State.threadMove_keepsMachine t (next_keepsMachine ?_)
    split <;> simp
  | refEdge => exact s.refEdge_machine
  | clock k => exact s.clockLook_machine k
  | deliver c => exact s.deliver_machine c
  | envTake c => exact s.envTake_machine c
  | envToken c tok => exact s.envToken_machine c tok
  | envPins p v => exact s.envPins_machine p v
  | debugRequest cause => exact next_keepsMachine rfl

theorem step_keepsMachine (s : State) : KeepsMachine s (step s) := by
  refine ite_keepsMachine trivial ?_
  split
  · exact .of_machine_eq rfl (perform_keepsMachine _ _)
  · exact s.auto_keepsMachine

/-- Settles O8: a step is a move of the agenda or of the fixed schedule, and every move keeps the platform, the numbers
of resources and the identifiers of the ports. -/
theorem stepKeepsMachine : Obligations.StepKeepsMachine := by
  intro s t hstep
  have hkeeps := step_keepsMachine s
  rw [hstep] at hkeeps
  exact State.sameMachine_iff.2 hkeeps

end Sys2Proof.Machine
end

section
/-! The status register and the waits for an event (R35, R520 to R522, R537 to R540): what SETSR and CLRSR leave in the
register read as a word, and what each wait answers. -/
namespace Sys2Proof.Machine

/-! ### Masks of the status register (R521, R522) -/

theorem srTestOnly_getLsbD {k : Nat} (hk : k < 32) : srTestOnly.getLsbD k = decide (k = 3 ∨ k = 5 ∨ k = 6) := by
  revert k; decide +kernel

/-- A mask is taken that names none of inint, sink and waiting (R521). -/
theorem maskRefused_eq_false {m : Word} (hinint : m.getLsbD 3 = false) (hsink : m.getLsbD 5 = false)
    (hwaiting : m.getLsbD 6 = false) : maskRefused m = false := by
  have hand : m &&& srTestOnly = 0#32 := by
    apply BitVec.eq_of_getLsbD_eq
    intro k hk
    rw [BitVec.getLsbD_and, srTestOnly_getLsbD hk, BitVec.getLsbD_zero]
    by_cases h : k = 3 ∨ k = 5 ∨ k = 6
    · obtain rfl | rfl | rfl := h <;> simp only [hinint, hsink, hwaiting, Bool.false_and]
    · simp [h]
  simp [maskRefused, hand]

/-- The same of the mask that an instruction holds. -/
theorem maskRefused_immWord {u : BitVec 16} (hinint : u.getLsbD 3 = false) (hsink : u.getLsbD 5 = false)
    (hwaiting : u.getLsbD 6 = false) : maskRefused (immWord u) = false := by
  apply maskRefused_eq_false <;> simp only [immWord, BitVec.getLsbD_setWidth, *, Bool.and_false]

/-- Bits 31..8 of the status register read as zero (R35). -/
theorem SR.toWord_and_implemented (f : SR) : f.toWord &&& 0xFF#32 = f.toWord := by
  rw [← SR.toWord_ofWord, SR.ofWord_toWord]

theorem SR.toWord_setMask (f : SR) (m : Word) : (f.setMask m).toWord = f.toWord ||| (m &&& 0xFF#32) := by
  calc (f.setMask m).toWord = (f.toWord ||| m) &&& 0xFF#32 := SR.toWord_ofWord _
    _ = f.toWord &&& 0xFF#32 ||| m &&& 0xFF#32 := by ext k; simp [Bool.and_or_distrib_right]
    _ = f.toWord ||| m &&& 0xFF#32 := by rw [f.toWord_and_implemented]

theorem SR.toWord_clearMask (f : SR) (m : Word) : (f.clearMask m).toWord = f.toWord &&& ~~~m := by
  calc (f.clearMask m).toWord = f.toWord &&& ~~~m &&& 0xFF#32 := SR.toWord_ofWord _
    _ = f.toWord &&& 0xFF#32 &&& ~~~m := by ac_rfl
    _ = f.toWord &&& ~~~m := by rw [f.toWord_and_implemented]

theorem execSetsr_eq {u : BitVec 16} (h : maskRefused (immWord u) = false) (s : State) :
    execSetsr u s = .next (s.withThr s.tid { s.cur with sr := s.cur.sr.setMask (immWord u) }) := by
  simp [execSetsr, h, State.updCur, State.updThr_eq, State.cur]

theorem execClrsr_eq {u : BitVec 16} (h : maskRefused (immWord u) = false) (s : State) :
    execClrsr u s = .next (s.withThr s.tid { s.cur with sr := s.cur.sr.clearMask (immWord u) }) := by
  simp [execClrsr, h, State.updCur, State.updThr_eq, State.cur]

/-! ### Waits for an event (R537 to R540) -/

theorem waitForEvent_spec (s : State) : ∃ t, waitForEvent s = .next t ∧ s.becomes t { s.cur with
    pc := s.pcThis, sr := { s.cur.sr with eeble := true, waiting := true }, evwait := true } :=
  ⟨_, waitForEvent_eq s, s.becomes_of_withThr _⟩

/-- A wait under a condition: it waits where the condition holds, and does nothing otherwise (R537, R538). -/
theorem waitForEvent_if_spec {s : State} {r : Result} {p : Prop} [Decidable p]
    (h : r = if p then waitForEvent s else .next s) :
    (p → ∃ t, r = .next t ∧ s.becomes t { s.cur with
      pc := s.pcThis, sr := { s.cur.sr with eeble := true, waiting := true }, evwait := true }) ∧
    (¬p → r = .next s) :=
  ⟨fun hp => by rw [h, if_pos hp]; exact waitForEvent_spec s, fun hp => by rw [h, if_neg hp]⟩

theorem execWaitet_eq (c : Reg) (s : State) :
    execWaitet c s = if (s.x c).toNat ≠ 0 then waitForEvent s else .next s := by
  simp only [execWaitet, ne_eq, ite_not, ← BitVec.toNat_inj, BitVec.toNat_ofNat, Nat.zero_mod]

theorem execWaitef_eq (c : Reg) (s : State) :
    execWaitef c s = if (s.x c).toNat = 0 then waitForEvent s else .next s := by
  simp only [execWaitef, ← BitVec.toNat_inj, BitVec.toNat_ofNat, Nat.zero_mod]

/-- Settles O48: each form's equation, with the word that the new status register reads as. -/
theorem statusAndWaits : Obligations.StatusAndWaits := by
  refine ⟨SR.toWord_toNat, fun s c u => ⟨writeReg_spec s r11 _, ?_, ?_⟩⟩
  · intro hinint hsink hwaiting
    have htaken := maskRefused_immWord hinint hsink hwaiting
    exact ⟨⟨_, execSetsr_eq htaken s, SR.toWord_setMask _ _⟩, ⟨_, execClrsr_eq htaken s, SR.toWord_clearMask _ _⟩⟩
  · simp only [List.forall_mem_cons, List.not_mem_nil, false_imp_iff, implies_true, and_true]
    exact ⟨waitForEvent_if_spec (execWaitet_eq c s), waitForEvent_if_spec (execWaitef_eq c s),
      waitForEvent_if_spec (if_pos trivial).symm⟩

end Sys2Proof.Machine
end

section
/-! Moves of the agenda that are not open (R57, R85, R540, R651): such a move of a thread leaves all but the agenda. -/
namespace Sys2Proof.Machine

/-- The thread whose move it is, where it is a thread's. -/
def Move.thread : Move → Option Nat
  | .issue t | .event t _ | .interrupt t _ | .resume t => some t
  | _ => none

/-- The condition under which `perform` acts on a move of a thread (`perform_of_not_opens`); the moves of the other
agents have none here. -/
def State.opens (s : State) : Move → Bool
  | .issue t => s.runnable t
  | .event t q => s.eventOpen t q
  | .interrupt t q => s.interruptOpen t q
  | .resume t => s.resumable t
  | _ => true

/-- With no debug request due, the thread moves. -/
theorem State.threadMove_of_not_due {s : State} {t : Nat} (hdue : t = 0 → s.debugDue = false) (k : State → Result) :
    s.threadMove t k = k s := by
  have hnot : ¬(decide (t = 0) && s.debugDue) = true := by simpa using hdue
  exact if_neg hnot

theorem perform_of_not_opens {s : State} {m : Move} {t : Nat} (hm : m.thread = some t)
    (hdue : t = 0 → s.debugDue = false) (hclosed : s.opens m = false) : perform s m = .next s := by
  cases m with
  | issue | event | interrupt | resume =>
    cases hm
    simp only [State.opens] at hclosed
    simp [perform, State.threadMove_of_not_due hdue, hclosed]
  | _ => cases hm

theorem step_of_agenda {s : State} {m : Move} {rest : List Move} (hthreads : s.threads ≠ [])
    (hagenda : s.agenda = m :: rest) : step s = perform { s with agenda := rest } m := by
  simp [step, State.advance, hthreads, hagenda]

/-- The conditions of a move do not read the agenda. -/
theorem State.opens_agenda (s : State) (ms : List Move) (m : Move) : { s with agenda := ms }.opens m = s.opens m := by
  cases m with
  | event t q | interrupt t q => cases q <;> rfl
  | _ => rfl

theorem step_of_not_opens {s : State} {m : Move} {rest : List Move} {t : Nat} (hthreads : s.threads ≠ [])
    (hagenda : s.agenda = m :: rest) (hm : m.thread = some t) (hdue : t = 0 → s.debugDue = false)
    (hclosed : s.opens m = false) : step s = .next { s with agenda := rest } := by
  rw [step_of_agenda hthreads hagenda]
  exact perform_of_not_opens hm hdue ((s.opens_agenda rest m).trans hclosed)

/-! ### When a move is not open -/

/-- A thread that is free, paused at a synchroniser or frozen by debug mode cannot act (R57, R85). -/
theorem State.canAct_eq_false_iff {s : State} {t : Nat} : s.canAct t = false ↔
    (s.thr t).inuse = false ∨ t ∈ s.spaused ∨ t ∈ s.mpaused ∨ (s.dbg.indbg = true ∧ t ≠ 0) := by
  simp only [State.canAct, Bool.and_eq_false_iff, Bool.or_eq_false_iff, Bool.not_eq_false', List.contains_iff_mem,
    decide_eq_false_iff_not, or_assoc, ne_eq]

theorem State.opens_of_not_canAct {s : State} {m : Move} {t : Nat} (hm : m.thread = some t)
    (hact : s.canAct t = false) : s.opens m = false := by
  cases m with
  | issue => cases hm; simp [State.opens, State.runnable, hact]
  | event => cases hm; simp [State.opens, State.eventOpen, hact]
  | interrupt => cases hm; simp [State.opens, State.interruptOpen, hact]
  | resume => cases hm; simp [State.opens, State.resumable, hact]
  | _ => cases hm

theorem State.opens_issue_of_waiting {s : State} {t : Nat} (h : (s.thr t).sr.waiting = true) :
    s.opens (.issue t) = false := by simp [State.opens, State.runnable, h]

/-- A wait for an event is not ended by a resumption (R540). -/
theorem State.opens_resume_of_evwait {s : State} {t : Nat} (h : (s.thr t).evwait = true) :
    s.opens (.resume t) = false := by simp [State.opens, State.resumable, h]

theorem State.opens_event_of_not_eeble {s : State} {t : Nat} (q : ResRef) (h : (s.thr t).sr.eeble = false) :
    s.opens (.event t q) = false := by simp [State.opens, State.eventOpen, h]

theorem State.opens_interrupt_of_not_ieble {s : State} {t : Nat} (q : ResRef) (h : (s.thr t).sr.ieble = false) :
    s.opens (.interrupt t q) = false := by simp [State.opens, State.interruptOpen, h]

/-- Settles O55: none of these moves is open, and a move that is not open changes nothing but the agenda. -/
theorem threadsThatMayNotMove : Obligations.ThreadsThatMayNotMove := by
  intro s t q m rest hagenda hthreads hdue
  have stays (hm : m.thread = some t) (hclosed : s.opens m = false) : step s = .next { s with agenda := rest } :=
    step_of_not_opens hthreads hagenda hm hdue hclosed
  constructor
  · intro hmem hnot
    have hm : m.thread = some t := by
      simp only [List.mem_cons, List.not_mem_nil, or_false] at hmem
      obtain rfl | rfl | rfl | rfl := hmem <;> rfl
    exact stays hm (State.opens_of_not_canAct hm (State.canAct_eq_false_iff.2 hnot))
  · rintro (⟨rfl, hwaiting⟩ | ⟨rfl, hevwait⟩ | ⟨rfl, heeble⟩ | ⟨rfl, hieble⟩)
    · exact stays rfl (State.opens_issue_of_waiting hwaiting)
    · exact stays rfl (State.opens_resume_of_evwait hevwait)
    · exact stays rfl (State.opens_event_of_not_eeble q heeble)
    · exact stays rfl (State.opens_interrupt_of_not_ieble q hieble)

end Sys2Proof.Machine
end

section
/-! The invariant (R66, R90, R402, R405, R407, R425): memory stays canonical, and every channel end keeps its capacities
and its tokens. `State.inv` reads the platform, memory and the channel ends alone, so that a change of anything else
leaves it as it is, by unfolding; what is left to prove is about stores, the channel operations and deliveries. -/
namespace Sys2Proof.Machine

/-! ### Channel ends in order -/

theorem State.inv_iff {s : State} :
    s.inv = true ↔ Memory.wf s.mem = true ∧ ∀ c ∈ s.chans, c.ok s.plat = true := by
  simp [State.inv]

/-- What `Chanend.ok` says, in propositions (R66, R402, R407). -/
theorem Chanend.ok_iff {pl : Platform} {c : Chanend} : c.ok pl = true ↔
    c.inbuf.length ≤ pl.chanBuf ∧ c.flight.length ≤ pl.flightCap ∧
      (∀ t ∈ c.inbuf, t.deliverable = true) ∧ ∀ e ∈ c.flight, e.2.sendable = true := by
  simp [Chanend.ok, and_assoc]

theorem Chanend.ok_blank (pl : Platform) : Chanend.blank.ok pl = true := by
  simp [Chanend.ok_iff, Chanend.blank]

/-- A channel end that loses tokens, and gains none, stays in order. -/
theorem Chanend.ok_of_sublist {pl : Platform} {c d : Chanend} (h : c.ok pl = true) (hin : d.inbuf.Sublist c.inbuf)
    (hout : d.flight.Sublist c.flight) : d.ok pl = true := by
  obtain ⟨hbuf, hcap, hdeliverable, hsendable⟩ := Chanend.ok_iff.1 h
  exact Chanend.ok_iff.2 ⟨hin.length_le.trans hbuf, hout.length_le.trans hcap,
    fun t ht => hdeliverable t (hin.subset ht), fun e he => hsendable e (hout.subset he)⟩

theorem Chanend.ok_takeOne {pl : Platform} {c : Chanend} (h : c.ok pl = true) : c.takeOne.ok pl = true :=
  Chanend.ok_of_sublist h (List.tail_sublist _) (.refl _)

theorem Chanend.ok_dropHead {pl : Platform} {c : Chanend} (h : c.ok pl = true) : c.dropHead.ok pl = true :=
  Chanend.ok_of_sublist h (.refl _) (List.tail_sublist _)

/-- Output where there is room, of tokens that may be sent (R407, R425). -/
theorem Chanend.ok_send {pl : Platform} {c : Chanend} {ts : List Token} (h : c.ok pl = true)
    (hroom : c.flight.length + ts.length ≤ pl.flightCap) (hts : ∀ t ∈ ts, t.sendable = true) :
    (c.send ts).ok pl = true := by
  obtain ⟨hbuf, -, hdeliverable, hsendable⟩ := Chanend.ok_iff.1 h
  refine Chanend.ok_iff.2 ⟨hbuf, by simpa [Chanend.send] using hroom, hdeliverable, fun e he => ?_⟩
  rcases List.mem_append.1 he with hold | hnew
  · exact hsendable e hold
  · obtain ⟨t, ht, rfl⟩ := List.mem_map.1 hnew
    exact hts t ht

/-- No mode of SETC touches a channel end's tokens (R452). -/
theorem Chanend.ok_setMode {pl : Platform} {c d : Chanend} {m : Mode} (h : c.ok pl = true)
    (hm : c.setMode m = some d) : d.ok pl = true := by
  cases m with
  | ieEvent | ieInterrupt => cases hm; exact h
  | _ => cases hm

/-- A data token is no hardware token (R401). -/
theorem dtoken_sendable (v : Word) : (dtoken v).sendable = true := rfl

theorem wordTokens_sendable (v : Word) : ∀ t ∈ wordTokens v, t.sendable = true := by
  simp [wordTokens, dtoken_sendable]

theorem State.inv_ite {c : Prop} [Decidable c] {a b : State} (ha : a.inv = true) (hb : b.inv = true) :
    (if c then a else b).inv = true := by
  split
  · exact ha
  · exact hb

/-! ### The updates that reach memory or a channel end -/

section Updates

variable {s : State} (h : s.inv = true)
include h

/-- Every channel end is in order, one that a number out of range stands for among them. -/
theorem State.ok_chan (n : Nat) : (s.chan n).ok s.plat = true := by
  by_cases hn : n < s.chans.length
  · have hget : s.chan n = s.chans[n] := by simp [State.chan, hn]
    rw [hget]
    exact (State.inv_iff.1 h).2 _ (List.getElem_mem hn)
  · have hget : s.chan n = Chanend.blank := by simp [State.chan, hn]
    rw [hget]
    exact Chanend.ok_blank _

theorem State.inv_memWrite (a : Word) (n : Nat) (v : Word) : (s.memWrite a n v).inv = true :=
  State.inv_iff.2 ⟨Memory.wf_writeN (State.inv_iff.1 h).1 _ _ _, (State.inv_iff.1 h).2⟩

theorem State.inv_updChan {n : Nat} {f : Chanend → Chanend} (hf : (f (s.chan n)).ok s.plat = true) :
    (s.updChan n f).inv = true := by
  obtain ⟨hmem, hchans⟩ := State.inv_iff.1 h
  rw [State.updChan_eq]
  refine State.inv_iff.2 ⟨hmem, fun c hc => ?_⟩
  rcases List.mem_or_eq_of_mem_set hc with hold | rfl
  · exact hchans c hold
  · exact hf

theorem State.inv_updEs (q : ResRef) (f : EventState → EventState) : (s.updEs q f).inv = true := by
  cases q with
  | chan n => exact State.inv_updChan h (State.ok_chan h n)
  | timer | port => exact h

/-- A change of every channel end in what is no token of it. -/
theorem State.inv_mapChans {f : Chanend → Chanend} (hf : ∀ c, c.ok s.plat = true → (f c).ok s.plat = true) :
    { s with chans := s.chans.map f }.inv = true := by
  obtain ⟨hmem, hchans⟩ := State.inv_iff.1 h
  refine State.inv_iff.2 ⟨hmem, fun d hd => ?_⟩
  obtain ⟨c, hc, rfl⟩ := List.mem_map.1 hd
  exact hf c (hchans c hc)

theorem State.inv_clearWaiter (t : Nat) : (s.clearWaiter t).inv = true :=
  State.inv_mapChans h fun _ hc => hc

theorem State.inv_detach (t : Nat) : (s.detach t).inv = true := State.inv_clearWaiter h t
theorem State.inv_resumeThr (t : Nat) : (s.resumeThr t).inv = true := State.inv_clearWaiter h t
theorem State.inv_debugEnter (cause : Word) : (s.debugEnter cause).inv = true := State.inv_detach h 0
theorem State.inv_eventEnter (t : Nat) (r : ResRef) : (s.eventEnter t r).inv = true := State.inv_detach h t
theorem State.inv_interruptEnter (t : Nat) (r : ResRef) : (s.interruptEnter t r).inv = true := State.inv_detach h t

/-- A channel end starts without tokens (R355). -/
theorem State.inv_allocChan (k : Nat) : (s.allocChan k).inv = true :=
  State.inv_updChan h (Chanend.ok_of_sublist (State.ok_chan h k) (List.nil_sublist _) (List.nil_sublist _))

theorem State.inv_freeSlaves (k : Nat) : (s.freeSlaves k).inv = true := by
  rw [State.freeSlaves_eq]
  exact h

end Updates

/-! ### What the shared operations answer -/

/-- The answer, where it is a next state, meets the invariant. Where the next state is s but for other fields than the
platform, memory and the channel ends, this is `s.inv = true` by unfolding. -/
def AnswersInv : Result → Prop
  | .next t => t.inv = true
  | _ => True

theorem ite_answersInv {c : Prop} [Decidable c] {a b : Result} (ha : AnswersInv a) (hb : AnswersInv b) :
    AnswersInv (if c then a else b) := by
  split
  · exact ha
  · exact hb

section Answers

variable {s : State} (h : s.inv = true)
include h

theorem storeVal_answersInv (a : Word) (n : Nat) (v : Word) : AnswersInv (storeVal a n v s) :=
  ite_answersInv (State.inv_memWrite h a n v) h
theorem loadThen_answersInv (a : Word) {k : Word → State → Result} (hk : ∀ v, AnswersInv (k v s)) :
    AnswersInv (loadThen a k s) := ite_answersInv (hk _) h
theorem writePair_answersInv (d e : Reg) (v w : Word) : AnswersInv (writePair d e v w s) := ite_answersInv h h
theorem branchIf_answersInv (c : Bool) (v : Word) : AnswersInv (branchIf c v s) := by
  cases c <;> exact h

theorem pauseOnChanIn_answersInv (n : Nat) : AnswersInv (pauseOnChanIn n s) :=
  State.inv_updChan h (State.ok_chan h n)
theorem pauseOnChanOut_answersInv (n : Nat) : AnswersInv (pauseOnChanOut n s) :=
  State.inv_updChan h (State.ok_chan h n)

/-! The common checks (R354): the trap meets the invariant, and so does what follows where the check passes. -/

theorem withPort_answersInv (r : Word) {k : Nat → State → Result} (hk : ∀ n, AnswersInv (k n s)) :
    AnswersInv (withPort r k s) := by
  unfold withPort
  split
  · exact hk _
  · exact h
theorem withChan_answersInv (r : Word) {k : Nat → State → Result} (hk : ∀ n, AnswersInv (k n s)) :
    AnswersInv (withChan r k s) := by
  unfold withChan
  split
  · exact hk _
  · exact h
theorem withSync_answersInv (r : Word) {k : Nat → State → Result} (hk : ∀ n, AnswersInv (k n s)) :
    AnswersInv (withSync r k s) := by
  unfold withSync
  split
  · exact hk _
  · exact h
theorem withThread_answersInv (r : Word) {k : Nat → State → Result} (hk : ∀ n, AnswersInv (k n s)) :
    AnswersInv (withThread r k s) := by
  unfold withThread
  split
  · exact hk _
  · exact h
theorem withEventRes_answersInv (r : Word) {k : ResRef → State → Result} (hk : ∀ q, AnswersInv (k q s)) :
    AnswersInv (withEventRes r k s) := by
  unfold withEventRes
  split
  · exact hk _
  · exact hk _
  · exact hk _
  · exact h
theorem withPausedThread_answersInv (r : Word) {k : Nat → State → Result} (hk : ∀ n, AnswersInv (k n s)) :
    AnswersInv (withPausedThread r k s) := withThread_answersInv h r fun n => ite_answersInv (hk n) h
theorem withCount_answersInv (r : Word) (count : Nat) {k : Nat → State → Result} (hk : ∀ n, AnswersInv (k n s)) :
    AnswersInv (withCount r count k s) := withPort_answersInv h r fun n => ite_answersInv (hk n) h
theorem withOutChan_answersInv (r : Word) {k : Nat → State → Result} (hk : ∀ n, AnswersInv (k n s)) :
    AnswersInv (withOutChan r k s) := withChan_answersInv h r fun n => ite_answersInv (hk n) h
theorem withHead_answersInv (r : Word) {k : Nat → Token → State → Result} (hk : ∀ n t, AnswersInv (k n t s)) :
    AnswersInv (withHead r k s) := by
  refine withChan_answersInv h r fun n => ?_
  split
  · exact pauseOnChanIn_answersInv h n
  · exact hk n _
theorem unlessPrivileged_answersInv (r : Word) (tok : Token) {k : State → Result} (hk : AnswersInv (k s)) :
    AnswersInv (unlessPrivileged r tok k s) := by
  unfold unlessPrivileged
  split
  · exact h
  · exact hk
theorem inDebug_answersInv {k : State → Result} (hk : AnswersInv (k s)) : AnswersInv (inDebug k s) :=
  ite_answersInv hk h

theorem allocate_answersInv (d : Reg) (free : Option Nat) {alloc : State → Nat → State} (ident : Nat → Word)
    (halloc : ∀ k, (alloc s k).inv = true) : AnswersInv (allocate d free alloc ident s) := by
  cases free with
  | none => exact h
  | some k => exact halloc k

/-! Channel ends, locks and ports. -/

/-- Tokens that may be sent are sent where there is room (R407). -/
theorem sendTokens_answersInv (n : Nat) {ts : List Token} (hts : ∀ t ∈ ts, t.sendable = true) :
    AnswersInv (sendTokens n ts s) := by
  unfold sendTokens
  split
  · next hroom => exact State.inv_updChan h (Chanend.ok_send (State.ok_chan h n) hroom hts)
  · exact pauseOnChanOut_answersInv h n

/-- A hardware control token is not sent: it traps (R425). -/
theorem outControl_answersInv (r : Word) (tok : Token) : AnswersInv (outControl r tok s) := by
  refine withChan_answersInv h r fun n => ite_answersInv h (ite_answersInv ?_ h)
  split
  · exact h
  · next hsoft =>
    exact unlessPrivileged_answersInv h r tok (sendTokens_answersInv h n (by simpa [Token.sendable] using hsoft))

theorem takeOne_inv (n : Nat) : (s.updChan n Chanend.takeOne).inv = true :=
  State.inv_updChan h (Chanend.ok_takeOne (State.ok_chan h n))

theorem checkToken_answersInv (r v : Word) : AnswersInv (checkToken r v s) :=
  withHead_answersInv h r fun n tok => ite_answersInv (unlessPrivileged_answersInv h r tok (takeOne_inv h n)) h

theorem inChan_answersInv (d : Reg) (r : Word) (n : Nat) : AnswersInv (inChan d r n s) :=
  ite_answersInv h <| ite_answersInv (pauseOnChanIn_answersInv h n) <|
    State.inv_updChan h
      (Chanend.ok_of_sublist (State.ok_chan h n) (List.drop_sublist 4 _) (.refl _))

theorem outLock_answersInv (n : Nat) : AnswersInv (outLock n s) := by
  unfold outLock
  dsimp only
  split
  · exact h
  · exact State.inv_resumeThr (s := s.updLock n _) h _

theorem inLock_answersInv (d : Reg) (r : Word) (n : Nat) : AnswersInv (inLock d r n s) :=
  ite_answersInv h (ite_answersInv h h)

theorem outPort_answersInv (r : Word) (n : Nat) (v : Word) {f : Port → Port} {k : State → State}
    (hk : ∀ u, (k u).inv = u.inv) : AnswersInv (outPort r n v f k s) :=
  ite_answersInv h <| ite_answersInv h <| (hk _).trans h

theorem inPort_answersInv (r : Word) (n : Nat) {f : Port → Port} {k : Word → State → State}
    (hk : ∀ v u, (k v u).inv = u.inv) : AnswersInv (inPort r n f k s) :=
  ite_answersInv h <| ite_answersInv h <| ite_answersInv h <| (hk _ _).trans h

/-- SETC and SETCI reach no token (R357, R452). -/
theorem setControl_answersInv (r v : Word) : AnswersInv (setControl r v s) := by
  unfold setControl
  split
  case h_4 n _ _ =>
    split
    · next c hc =>
      obtain ⟨-, hmode⟩ := Option.ite_none_right_eq_some.1 hc
      exact State.inv_updChan h (Chanend.ok_setMode (State.ok_chan h n) hmode)
    · exact h
  case h_1 | h_2 => exact ite_answersInv (by split <;> exact h) h
  case h_3 => split <;> exact h
  case h_5 => exact h

theorem initReg_answersInv (i : Reg) (v t : Word) : AnswersInv (initReg i v t s) :=
  withPausedThread_answersInv h t fun _ => h

theorem setEnable_answersInv (r : Word) (b : Bool) : AnswersInv (setEnable r b s) :=
  withEventRes_answersInv h r fun q => State.inv_updEs h q _

theorem stopMaster_answersInv (k : Nat) (join : Bool) : AnswersInv (s.stopMaster k join) := ite_answersInv trivial h

/-! ### Instructions whose meaning has several branches -/

/-- GETR allocates one resource, or answers 0 (R355). -/
theorem execGetr_answersInv (d : Reg) (us : Us) : AnswersInv (execGetr d us s) := by
  unfold execGetr
  split
  case h_2 => exact allocate_answersInv h d _ _ (State.inv_allocChan h)
  case h_6 => exact h
  all_goals exact allocate_answersInv h d _ _ fun _ => h

theorem execFreer_answersInv (r : Reg) : AnswersInv (execFreer r s) := by
  unfold execFreer
  split
  case h_4 => exact ite_answersInv h h
  case h_5 n _ =>
    exact ite_answersInv h <| ite_answersInv (pauseOnChanOut_answersInv h n) <|
      State.inv_updChan h
        (State.ok_chan h n)
  all_goals exact h

theorem execTsetmr_answersInv (d src : Reg) : AnswersInv (execTsetmr d src s) := by
  unfold execTsetmr
  split
  · trivial
  · exact ite_answersInv h h

theorem execGetst_answersInv (d r : Reg) : AnswersInv (execGetst d r s) :=
  withSync_answersInv h _ fun _ => allocate_answersInv h d _ _ fun _ => h

theorem execTstart_answersInv (r : Reg) : AnswersInv (execTstart r s) :=
  withPausedThread_answersInv h _ fun n => ite_answersInv (State.inv_resumeThr (s := s.startThreads [n]) h n) h

/-- SSYNC frees or releases the slaves, refuses, or stops the thread (R380). -/
theorem execSsync_answersInv : AnswersInv (execSsync s) := by
  unfold execSsync
  split
  · trivial
  · next k _ =>
    have hfreed : (s.clearEeble.freeSlaves k).inv = true := State.inv_freeSlaves (s := s.clearEeble) h k
    exact ite_answersInv (State.inv_ite (c := (s.sync k).mjoin = true) hfreed h) (ite_answersInv trivial h)

theorem execMsync_answersInv (r : Reg) : AnswersInv (execMsync r s) := by
  refine withSync_answersInv h _ fun k => ite_answersInv ?_ (stopMaster_answersInv h k false)
  split <;> exact h

theorem execMjoin_answersInv (r : Reg) : AnswersInv (execMjoin r s) :=
  withSync_answersInv h _ fun k =>
    ite_answersInv (State.inv_freeSlaves (s := s.clearEeble) h k) (stopMaster_answersInv h k true)

theorem execSetd_answersInv (r src : Reg) : AnswersInv (execSetd r src s) := by
  unfold execSetd
  dsimp only
  split
  case h_3 n _ =>
    exact ite_answersInv
      (State.inv_updChan h (State.ok_chan h n)) h
  case h_4 => exact ite_answersInv h h
  all_goals exact h

theorem execGetd_answersInv (d r : Reg) : AnswersInv (execGetd d r s) := by
  unfold execGetd
  split <;> exact h

theorem execSetn_answersInv (r src : Reg) : AnswersInv (execSetn r src s) :=
  withChan_answersInv h _ fun n =>
    State.inv_updChan h (State.ok_chan h n)

theorem execOut_answersInv (r src : Reg) : AnswersInv (execOut r src s) := by
  unfold execOut
  split
  · exact withOutChan_answersInv h _ fun n => sendTokens_answersInv h n (wordTokens_sendable _)
  · exact outLock_answersInv h _
  · exact outPort_answersInv h _ _ _ fun _ => rfl
  · exact h

theorem execIn_answersInv (d r : Reg) : AnswersInv (execIn d r s) := by
  unfold execIn
  split
  · exact inChan_answersInv h d _ _
  · exact inLock_answersInv h d _ _
  · exact ite_answersInv h h
  · exact inPort_answersInv h _ _ fun _ _ => rfl
  · exact h

theorem execInt_answersInv (d r : Reg) : AnswersInv (execInt d r s) :=
  withHead_answersInv h _ fun n _ => ite_answersInv h (takeOne_inv h n)

theorem execInct_answersInv (d r : Reg) : AnswersInv (execInct d r s) :=
  withHead_answersInv h _ fun n tok =>
    ite_answersInv (unlessPrivileged_answersInv h _ tok (takeOne_inv h n)) h

theorem execTestwct_answersInv (d r : Reg) : AnswersInv (execTestwct d r s) :=
  withChan_answersInv h _ fun n => ite_answersInv h (ite_answersInv h (pauseOnChanIn_answersInv h n))

theorem execSetclk_answersInv (r src : Reg) : AnswersInv (execSetclk r src s) := by
  unfold execSetclk
  dsimp only
  split
  case h_3 => exact h
  all_goals exact ite_answersInv h h

theorem execSetrdy_answersInv (r src : Reg) : AnswersInv (execSetrdy r src s) := by
  unfold execSetrdy
  dsimp only
  split
  case h_3 => exact h
  all_goals exact ite_answersInv h h

theorem execKrestsp_answersInv (u16 : BitVec 16) : AnswersInv (execKrestsp u16 s) := by
  unfold execKrestsp
  exact loadThen_answersInv h _ fun _ => h

/-- CLRE disables the events of every channel end and takes no token from one (R536). -/
theorem execClre_answersInv : AnswersInv (execClre s) :=
  State.inv_mapChans h fun _ hc => hc

theorem execDgetreg_answersInv (src : Reg) : AnswersInv (execDgetreg src s) := by
  refine inDebug_answersInv h ?_
  split <;> exact h

theorem execGetps_answersInv (d r : Reg) : AnswersInv (execGetps d r s) := by
  unfold execGetps
  split <;> exact h

theorem execSetps_answersInv (r src : Reg) : AnswersInv (execSetps r src s) := by
  unfold execSetps
  split
  · exact ite_answersInv h h
  · exact h

/-! ### Every instruction -/

/-- Each instruction is a use of the shared operations, which answer states that meet the invariant. -/
theorem exec_answersInv (i : Instr) : AnswersInv (exec i s) := by
  cases i with unfold exec
  -- a register is written, or the thread goes on elsewhere
  | ldawsp | ldawdp | ldc | ldawcp | ldapf | ldapb | ldawfi | ldawbi | ldawf | ldawb | lda16f | lda16b
  | add | addi | sub | subi | neg | eq | eqi | lss | lsu | and | or | xor | not | andnot
  | shl | shli | shr | shri | ashr | ashri | mul | mkmsk | mkmski | sext | sexti | zext | zexti | bitrev | byterev | clz
  | extsp | extdp | setsp | setdp | setcp | getid | getsr | getet | geted | getkep | getksp | crc
  | brfu | brbu | bru | bau | blrf | blrb | bla | kcall | kcalli | kret | freet | setkep | waiteu =>
    exact h
  | divs | divu | rems | remu | ecallt | ecallf | waitet | waitef => exact ite_answersInv h h
  | setsr | clrsr => exact ite_answersInv trivial h
  | brft | brff | brbt | brbf => exact branchIf_answersInv h _ _
  | ladd | lsub | lmul | maccs | maccu | crc8 => exact writePair_answersInv h _ _ _ _
  | ldivu => exact ite_answersInv h (writePair_answersInv h _ _ _ _)
  -- loads and stores
  | ldwsp | ldwdp | ldwcp | ldwcpl | ldwi | ldw | ld16s | ld8u => exact ite_answersInv h h
  | stwsp | stwdp | stwi | stw | st16 | st8 | stspc | stssr | stsed | stet => exact storeVal_answersInv h _ _ _
  | ldspc | ldssr | ldsed | ldet | blacp | blat => exact loadThen_answersInv h _ fun _ => h
  | retsp => exact ite_answersInv h (loadThen_answersInv h _ fun _ => h)
  | krestsp => exact execKrestsp_answersInv h _
  | kentsp => exact ite_answersInv (State.inv_memWrite h _ 4 _) h
  | entsp => exact ite_answersInv h (ite_answersInv (State.inv_memWrite h _ 4 _) h)
  -- resources, threads and synchronisers
  | getr => exact execGetr_answersInv h _ _
  | freer => exact execFreer_answersInv h _
  | setc | setci => exact setControl_answersInv h _ _
  | tinitpc => exact withPausedThread_answersInv h _ fun _ => h
  | tinitsp | tinitdp | tinitcp | tinitlr => exact initReg_answersInv h _ _ _
  | tsetr => exact withThread_answersInv h _ fun _ => h
  | tsetmr => exact execTsetmr_answersInv h _ _
  | getst => exact execGetst_answersInv h _ _
  | tstart => exact execTstart_answersInv h _
  | ssync => exact execSsync_answersInv h
  | msync => exact execMsync_answersInv h _
  | mjoin => exact execMjoin_answersInv h _
  -- channel ends and locks
  | setd => exact execSetd_answersInv h _ _
  | getd => exact execGetd_answersInv h _ _
  | setn => exact execSetn_answersInv h _ _
  | getn => exact withChan_answersInv h _ fun _ => h
  | outt =>
    exact withOutChan_answersInv h _ fun n => sendTokens_answersInv h n (by simp [dtoken_sendable])
  | outct | outcti => exact outControl_answersInv h _ _
  | int => exact execInt_answersInv h _ _
  | inct => exact execInct_answersInv h _ _
  | chkct | chkcti => exact checkToken_answersInv h _ _
  | out => exact execOut_answersInv h _ _
  | in_ => exact execIn_answersInv h _ _
  | testct => exact withHead_answersInv h _ fun _ _ => h
  | testwct => exact execTestwct_answersInv h _ _
  | testlcl => exact withChan_answersInv h _ fun _ => ite_answersInv h h
  -- ports and clock blocks
  | setclk => exact execSetclk_answersInv h _ _
  | setrdy => exact execSetrdy_answersInv h _ _
  | outshr => exact withPort_answersInv h _ fun n => outPort_answersInv h _ n _ fun _ => rfl
  | inshr => exact withPort_answersInv h _ fun n => inPort_answersInv h _ n fun _ _ => rfl
  | outpw => exact withCount_answersInv h _ _ fun n => outPort_answersInv h _ n _ fun _ => rfl
  | inpw => exact withCount_answersInv h _ _ fun n => inPort_answersInv h _ n fun _ _ => rfl
  | peek | getts | clrpt => exact withPort_answersInv h _ fun _ => h
  | setpt | settw | endin | syncr => exact withPort_answersInv h _ fun _ => ite_answersInv h h
  | setpsc => exact withCount_answersInv h _ _ fun _ => h
  -- events, debug and processor state
  | setv | setev => exact withEventRes_answersInv h _ fun q => State.inv_updEs h q _
  | eet | eef | eeu | edu => exact setEnable_answersInv h _ _
  | clre => exact execClre_answersInv h
  | dcall => exact ite_answersInv (State.inv_debugEnter h _) trivial
  | dret | dentsp | drestsp => exact inDebug_answersInv h h
  | dgetreg => exact execDgetreg_answersInv h _
  | getps => exact execGetps_answersInv h _ _
  | setps => exact execSetps_answersInv h _ _

/-! ### The agents besides the threads -/

/-- A clock block that looks at a port steps ports and clock blocks alone (R459). -/
theorem State.inv_clockLook (k : Nat) : (s.clockLook k).inv = true := by
  unfold State.clockLook
  dsimp only
  split
  · exact h
  · split
    · split <;> exact h
    · exact h

/-- A delivery: the token was one to be sent, and the destination has taken it as R405 has it. -/
theorem State.inv_deliver (c : Nat) : (s.deliver c).inv = true := by
  unfold State.deliver
  split
  · exact h
  · next d tok rest hflight =>
    split
    · next n _ =>
      split
      · next e haccept =>
        have hsendable : tok.sendable = true := by
          obtain ⟨-, -, -, hout⟩ := Chanend.ok_iff.1 (State.ok_chan h c)
          exact hout (d, tok) (by simp [hflight])
        have htaken : (s.updChan n fun _ => e).inv = true :=
          State.inv_updChan h (Chanend.ok_accept (State.ok_chan h n) hsendable haccept)
        exact State.inv_updChan htaken (Chanend.ok_dropHead (State.ok_chan htaken c))
      · exact h
    · exact h

theorem State.inv_deliverNext (c : Nat) : (s.deliverNext c).inv = true := by
  rw [State.deliverNext_eq]
  exact State.inv_deliver h c

theorem State.inv_envTake (c : Nat) : (s.envTake c).inv = true := by
  unfold State.envTake
  split
  · exact h
  · split
    · exact State.inv_updChan h (Chanend.ok_dropHead (State.ok_chan h c))
    · exact h

/-- The environment sends no hardware control token (R402, R408). -/
theorem State.inv_envToken (c : Nat) (tok : Token) : (s.envToken c tok).inv = true := by
  unfold State.envToken
  split
  · exact h
  · next hsoft =>
    split
    · next e haccept =>
      have hsendable : tok.sendable = true := by simpa [Token.sendable] using hsoft
      exact State.inv_updChan h (Chanend.ok_accept (State.ok_chan h c) hsendable haccept)
    · exact h

/-- What each move of a list keeps, all of them keep. -/
theorem foldl_inv {α : Type} {f : State → α → State} (hf : ∀ {u : State}, u.inv = true → ∀ a, (f u a).inv = true)
    (l : List α) : (l.foldl f s).inv = true :=
  List.foldlRecOn (motive := fun u : State => u.inv = true) l f h fun _ hu a _ => hf hu a

/-- A round of the agents: an edge of the reference clock, then every clock block, delivery and receiver in turn. -/
theorem State.inv_agentsRound : s.agentsRound.inv = true := by
  have hedge : s.refEdge.inv = true := h
  exact foldl_inv (foldl_inv (foldl_inv hedge State.inv_clockLook _) State.inv_deliverNext _) State.inv_envTake _

/-! ### The moves of a thread, and a step -/

theorem State.inv_fetchParcel (t a : Nat) : (s.fetchParcel t a).2.inv = true := by
  unfold State.fetchParcel
  split <;> exact h

theorem State.issue_answersInv (t : Nat) : AnswersInv (s.issue t) := by
  unfold State.issue
  dsimp only
  set s0 : State := { s with tid := t, pcThis := (s.thr t).pc }
  have hfirst : (s0.fetchParcel t (s.thr t).pc.toNat).2.inv = true := State.inv_fetchParcel (s := s0) h t _
  have hsecond (a : Nat) : ((s0.fetchParcel t (s.thr t).pc.toNat).2.fetchParcel t a).2.inv = true :=
    State.inv_fetchParcel hfirst t a
  refine ite_answersInv (ite_answersInv trivial h) (ite_answersInv (ite_answersInv hfirst ?_) ?_)
  · split
    · exact hsecond _
    · exact exec_answersInv (s := State.entered _ t _) (hsecond _) _
  · split
    · exact hfirst
    · exact exec_answersInv (s := State.entered _ t _) hfirst _

theorem State.threadMove_answersInv (t : Nat) {k : State → Result} (hk : AnswersInv (k s)) :
    AnswersInv (s.threadMove t k) :=
  ite_answersInv (State.inv_debugEnter (s := { s with dbg := { s.dbg with request := none } }) h _) hk

theorem State.inv_autoEnter (t : Nat) (r : ResRef) : (s.autoEnter t r).inv = true :=
  State.inv_ite (c := s.interruptOpen t r = true) (State.inv_interruptEnter h t r) (State.inv_eventEnter h t r)

theorem State.autoThread_answersInv (t : Nat) : AnswersInv (s.autoThread t) := by
  refine State.threadMove_answersInv h t ?_
  split
  · exact State.inv_autoEnter h t _
  · exact ite_answersInv (State.issue_answersInv (State.inv_resumeThr h t) t) <|
      ite_answersInv (State.issue_answersInv h t) h

/-- The fixed schedule moves a thread or the other agents (log 14). -/
theorem State.auto_answersInv : AnswersInv s.auto := by
  refine ite_answersInv ?_ (State.inv_agentsRound (s := { s with turn := 0 }) h)
  split
  · exact State.autoThread_answersInv (s := { s with turn := 1, rr := _ + 1 }) h _
  · exact State.inv_agentsRound h

/-- Every move of the agenda, open or not. -/
theorem perform_answersInv (m : Move) : AnswersInv (perform s m) := by
  cases m with unfold perform
  | issue t => exact State.threadMove_answersInv h t (ite_answersInv (State.issue_answersInv h t) h)
  | event t r => exact State.threadMove_answersInv h t (State.inv_ite (State.inv_eventEnter h t r) h)
  | interrupt t r => exact State.threadMove_answersInv h t (State.inv_ite (State.inv_interruptEnter h t r) h)
  | resume t => exact State.threadMove_answersInv h t (State.inv_ite (State.inv_resumeThr h t) h)
  | clock k => exact State.inv_clockLook h k
  | deliver c => exact State.inv_deliver h c
  | envTake c => exact State.inv_envTake h c
  | envToken c tok => exact State.inv_envToken h c tok
  | refEdge | envPins | debugRequest => exact h

theorem step_answersInv : AnswersInv (step s) := by
  refine ite_answersInv trivial ?_
  split
  · next m rest _ => exact perform_answersInv (s := { s with agenda := rest }) h m
  · exact State.auto_answersInv h

end Answers

/-- Settles O6: a step is a move of the agenda or of the fixed schedule, and every move keeps memory canonical and every
channel end in order. -/
theorem stepKeepsInv : Obligations.StepKeepsInv := by
  intro s t hinv hstep
  have hanswers := step_answersInv hinv
  rw [hstep] at hanswers
  exact hanswers

end Sys2Proof.Machine
end

section
/-! Accesses to a misaligned or missing address, and stores to ROM (R97): each instruction that loads or stores checks
its address first, and takes ET_LOAD_STORE where the check fails. -/
namespace Sys2Proof.Machine

/-! ### What an access may not reach (R97) -/

theorem readable_eq_false_iff (pl : Platform) (a : Word) (n : Nat) :
    readable pl a n = false ↔ a.toNat % n ≠ 0 ∨ memValid pl a.toNat = false := by
  rw [← Bool.not_eq_true, readable_iff, not_and_or, Bool.not_eq_true]

theorem writable_eq_false_iff (pl : Platform) (a : Word) (n : Nat) :
    writable pl a n = false ↔ a.toNat % n ≠ 0 ∨ memValid pl a.toNat = false ∨ inRom pl a.toNat = true := by
  rw [← Bool.not_eq_true, writable_iff, not_and_or, not_and_or, Bool.not_eq_true, Bool.not_eq_false]

section Traps

variable {s : State} {a : Word} {n : Nat}

theorem loadReg_traps {d : Reg} {ext : Word → Word} (h : a.toNat % n ≠ 0 ∨ memValid s.plat a.toNat = false) :
    ∃ t, loadReg d a n ext s = .next t ∧ s.trapped t 5#32 a :=
  loadReg_illegal d a n ext s ((readable_eq_false_iff _ a n).2 h)

theorem loadThen_traps {k : Word → State → Result} (h : a.toNat % 4 ≠ 0 ∨ memValid s.plat a.toNat = false) :
    ∃ t, loadThen a k s = .next t ∧ s.trapped t 5#32 a :=
  loadThen_illegal a k s ((readable_eq_false_iff _ a 4).2 h)

theorem storeVal_traps {v : Word}
    (h : a.toNat % n ≠ 0 ∨ memValid s.plat a.toNat = false ∨ inRom s.plat a.toNat = true) :
    ∃ t, storeVal a n v s = .next t ∧ s.trapped t 5#32 a :=
  storeVal_illegal a n v s ((writable_eq_false_iff _ a n).2 h)

/-- RETSP loads unless u16 is 0 (R325). -/
theorem execRetsp_traps {u : BitVec 16} (hu : u ≠ 0#16) (h : (wordAt (s.x sp) (immWord u)).toNat % 4 ≠ 0 ∨
    memValid s.plat (wordAt (s.x sp) (immWord u)).toNat = false) :
    ∃ t, execRetsp u s = .next t ∧ s.trapped t 5#32 (wordAt (s.x sp) (immWord u)) := by
  rw [execRetsp, if_neg hu]
  exact loadThen_traps h

/-- KRESTSP loads before it writes ksp and sp (R571). -/
theorem execKrestsp_traps {u : BitVec 16} (h : (wordAt (s.x sp) (immWord u)).toNat % 4 ≠ 0 ∨
    memValid s.plat (wordAt (s.x sp) (immWord u)).toNat = false) :
    ∃ t, execKrestsp u s = .next t ∧ s.trapped t 5#32 (wordAt (s.x sp) (immWord u)) := by
  rw [execKrestsp]
  exact loadThen_traps h

/-- ENTSP stores at sp unless u16 is 0 (R324). -/
theorem execEntsp_traps {u : BitVec 16} (hu : u ≠ 0#16) (h : (s.x sp).toNat % 4 ≠ 0 ∨
    memValid s.plat (s.x sp).toNat = false ∨ inRom s.plat (s.x sp).toNat = true) :
    ∃ t, execEntsp u s = .next t ∧ s.trapped t 5#32 (s.x sp) := by
  have hbad := (writable_eq_false_iff s.plat (s.x sp) 4).2 h
  rw [execEntsp, if_neg hu, if_neg (by simp [hbad])]
  exact raised_spec s .loadStore _

/-- KENTSP stores at ksp (R570). -/
theorem execKentsp_traps {u : BitVec 16} (h : s.cur.ksp.toNat % 4 ≠ 0 ∨
    memValid s.plat s.cur.ksp.toNat = false ∨ inRom s.plat s.cur.ksp.toNat = true) :
    ∃ t, execKentsp u s = .next t ∧ s.trapped t 5#32 s.cur.ksp := by
  have hbad := (writable_eq_false_iff s.plat s.cur.ksp 4).2 h
  rw [execKentsp, if_neg (by simp [hbad])]
  exact raised_spec s .loadStore _

end Traps

/-- Settles O14: each instruction is a load, a store or one of the four with several effects, and raises where the check
of its address fails. -/
theorem accessTraps : Obligations.AccessTraps := by
  intro s d b i us u w
  simp only [List.forall_mem_cons, List.not_mem_nil, false_imp_iff, implies_true, and_true]
  refine ⟨⟨?ldwsp, ?ldwdp, ?ldwcp, ?ldwcpl, ?ldwi, ?ldw, ?ld16s, ?ld8u, ?blacp, ?blat, ?ldspc, ?ldssr, ?ldsed, ?ldet,
    execKrestsp_traps⟩, execRetsp_traps, ⟨?stwsp, ?stwdp, ?stwi, ?stw, ?st16, ?st8, ?stspc, ?stssr, ?stsed,
    ?stet, execKentsp_traps⟩, execEntsp_traps⟩
  case ldwsp | ldwdp | ldwcp | ldwcpl | ldwi | ldw | ld16s | ld8u => unfold exec; exact loadReg_traps
  case blacp | blat | ldspc | ldssr | ldsed | ldet => unfold exec; exact loadThen_traps
  case stwsp | stwdp | stwi | stw | st16 | st8 | stspc | stssr | stsed | stet => unfold exec; exact storeVal_traps

end Sys2Proof.Machine
end

section
/-! The decoder reads back what the encoder packs (R130 to R164). A form is what both share: every form in range is
parsed from its own parcels (`Form.Reads`), the form of an instruction is in range and stands for that instruction, and
the forms that the parser answers have their operands in range. -/
namespace Sys2Proof

/-! ### The fields of one parcel -/

theorem isF3_iff {w : Nat} : isF3 w = true ↔ field w 6 5 ≤ 26 := decide_eq_true_iff
theorem isF3_eq_false_iff {w : Nat} : isF3 w = false ↔ ¬field w 6 5 ≤ 26 := decide_eq_false_iff_not
theorem isOnes_iff {w : Nat} : isOnes w = true ↔ field w 5 6 = 63 := decide_eq_true_iff
theorem isOnes_eq_false_iff {w : Nat} : isOnes w = false ↔ ¬field w 5 6 = 63 := decide_eq_false_iff_not

theorem needsSecond_eq_false_iff {w : Nat} : needsSecond w = false ↔ ¬field w 10 6 = 60 ∧ ¬field w 11 5 = 31 := by
  simp [needsSecond]

theorem field_packOp {op low : Nat} (hop : op < 32) (hlow : low < 2048) : field (packOp op low) 11 5 = op := by
  simp only [field, packOp]; omega

/-- The six opcode bits of a parcel hold the five of its opcode field and bit 10 of its operands. -/
theorem field_packOp_six {op low : Nat} (hop : op < 32) (hlow : low < 2048) :
    field (packOp op low) 10 6 = op * 2 + low / 1024 := by
  simp only [field, packOp]; omega

/-- The four fields that operands are cut into: the high parts in bits 10..6, the low parts two bits each (R134). -/
theorem field_packOp_parts {op high x y z : Nat} (hhigh : high < 32) (hx : x < 4) (hy : y < 4) (hz : z < 4) :
    field (packOp op (high * 64 + x * 16 + y * 4 + z)) 6 5 = high ∧
      field (packOp op (high * 64 + x * 16 + y * 4 + z)) 4 2 = x ∧
      field (packOp op (high * 64 + x * 16 + y * 4 + z)) 2 2 = y ∧
      field (packOp op (high * 64 + x * 16 + y * 4 + z)) 0 2 = z := by
  simp only [field, packOp]; omega

/-- The three-operand field keeps its operands (R134). -/
theorem packF3_fields {op a b c : Nat} (ha : a < 12) (hb : b < 12) (hc : c < 12) :
    isF3 (packOp op (packF3 a b c)) = true ∧ f3a (packOp op (packF3 a b c)) = a ∧
      f3b (packOp op (packF3 a b c)) = b ∧ f3c (packOp op (packF3 a b c)) = c := by
  have hmod (n : Nat) : n % 4 < 4 := Nat.mod_lt n (by decide)
  obtain ⟨hhigh, hx, hy, hz⟩ := field_packOp_parts (op := op) (high := a / 4 * 9 + b / 4 * 3 + c / 4) (by omega)
    (hmod a) (hmod b) (hmod c)
  rw [isF3_iff, f3a, f3b, f3c, packF3, hhigh, hx, hy, hz]
  omega

theorem packF3_lt {a b c : Nat} (ha : a < 12) (hb : b < 12) (hc : c < 12) : packF3 a b c < 2048 := by
  simp only [packF3]; omega

/-- A three-operand field is not the pattern of the 1r and 0r formats. -/
theorem isOnes_eq_false_of_isF3 {w : Nat} (h : isF3 w = true) : isOnes w = false := by
  simp only [isF3_iff, isOnes_eq_false_iff, field] at *
  omega

/-- The three operands of a parcel with a three-operand field are 0..11 (R134). -/
theorem f3_lt {w : Nat} (h : isF3 w = true) : f3a w < 12 ∧ f3b w < 12 ∧ f3c w < 12 := by
  rw [isF3_iff] at h
  simp only [f3a, f3b, f3c, field] at *
  omega

/-- The pattern of the 1r and 0r formats and of most second parcels keeps the five bits below it (R143, R144). -/
theorem ones_fields {op low : Nat} (hlow : low < 32) :
    isF3 (packOp op (0b111111 * 32 + low)) = false ∧ isOnes (packOp op (0b111111 * 32 + low)) = true ∧
      field (packOp op (0b111111 * 32 + low)) 0 5 = low := by
  simp only [isF3_eq_false_iff, isOnes_iff, field, packOp]
  omega

/-- A two-operand field is told from the three-operand one and from the pattern of all ones, and keeps its opcode bit
(R135, R136). -/
theorem packF2_fields {pairs : PairTable} {op bit4 a b : Nat} (hp : pairsOk pairs = true) (h4 : bit4 < 2)
    (ha : a < 12) (hb : b < 12) :
    isF3 (packOp op (packF2 pairs bit4 a b)) = false ∧ isOnes (packOp op (packF2 pairs bit4 a b)) = false ∧
      field (packOp op (packF2 pairs bit4 a b)) 4 1 = bit4 ∧ packF2 pairs bit4 a b < 2048 := by
  obtain ⟨h27, h31, h1, hne⟩ := pairCode_ok hp (v := a / 4 * 3 + b / 4) (by omega)
  simp only [packF2]
  generalize pairCode pairs (a / 4 * 3 + b / 4) = c at h27 h31 h1 hne
  have hones : ¬(c.high = 31 ∧ c.ext = 1) := fun ⟨hh, he⟩ => hne (by cases c; simp_all)
  simp only [isF3_eq_false_iff, isOnes_eq_false_iff, field, packOp]
  omega

/-! ### Forms in range -/

/-- The operand fields that no format takes above 11 are 0..11 (R133 to R136). -/
def Form.OperandsOk : Form → Prop
  | .f3 _ a b c | .l3 _ _ a b c => a < 12 ∧ b < 12 ∧ c < 12
  | .f2 _ _ a b | .l2 _ _ a b => a < 12 ∧ b < 12
  | .l5 _ _ a b c d e => (a < 12 ∧ b < 12 ∧ c < 12) ∧ d < 12 ∧ e < 12
  | .l6 _ a b c d e f => (a < 12 ∧ b < 12 ∧ c < 12) ∧ d < 12 ∧ e < 12 ∧ f < 12
  | .f1 .. | .ru6 .. | .u10 .. => True

/-- Bits 15..11 are an opcode of a one-parcel instruction with no immediate: 0..9 or 16..25 (R138, R142, R143). -/
def isShortOp (op : Nat) : Bool := op < 10 || (16 ≤ op && op < 26)

theorem isShortOp_iff {op : Nat} : isShortOp op = true ↔ op < 10 ∨ 16 ≤ op ∧ op < 26 := by simp [isShortOp]
theorem isRu6_iff {op : Nat} : isRu6 op = true ↔ (20 ≤ op ∧ op ≤ 31) ∨ op = 58 := by simp [isRu6]
theorem isU10_iff {op : Nat} : isU10 op = true ↔ 52 ≤ op ∧ op ≤ 57 := by simp [isU10]

/-- Every opcode field and immediate fits its place in the parcels, and the opcode of a one-parcel form is not one of
another format. -/
def Form.RangesOk : Form → Prop
  | .f3 op _ _ _ => isShortOp op = true
  | .f2 op bit4 _ _ => isShortOp op = true ∧ bit4 < 2
  | .f1 op bit4 r => isShortOp op = true ∧ bit4 < 2 ∧ r < 16
  | .ru6 op r imm => isRu6 op = true ∧ r < 16 ∧ imm < 65536
  | .u10 op imm => isU10 op = true ∧ imm < 1048576
  | .l3 sec low _ _ _ => sec < 32 ∧ low < 32
  | .l2 bit4 sec _ _ => bit4 < 2 ∧ sec < 65536
  | .l5 sec bit4 _ _ _ _ _ => sec < 32 ∧ bit4 < 2
  | .l6 sec _ _ _ _ _ _ => sec < 32

/-- The form packs into one parcel that is parsed as it whatever follows, or into two that are parsed as it. -/
def Form.Reads (pairs : PairTable) (f : Form) : Prop :=
  (∃ w, f.pack pairs = [w] ∧ w < 65536 ∧ ∀ w2, parse pairs w w2 = .ok (f, 2)) ∨
  (∃ w1 w2, f.pack pairs = [w1, w2] ∧ w1 < 65536 ∧ w2 < 65536 ∧ parse pairs w1 w2 = .ok (f, 4))

/-! ### One-parcel forms without an immediate (R138, R142, R143) -/

theorem packOp_lt {op low : Nat} (hop : op < 32) (hlow : low < 2048) : packOp op low < 65536 := by
  simp only [packOp]; omega

theorem parse_eq_short {pairs : PairTable} {w w2 : Nat} {f : Form} (hone : needsSecond w = false)
    (h : parseShort pairs w = .ok f) : parse pairs w w2 = .ok (f, 2) := by
  obtain ⟨hpfix, heopr⟩ := needsSecond_eq_false_iff.1 hone
  rw [parse, if_neg hpfix, if_neg heopr, h]

/-- A short opcode is none of PFIX, EOPR and the opcodes with an immediate. -/
theorem isShortOp_packOp {op low : Nat} (hop : isShortOp op = true) (hlow : low < 2048) :
    op < 32 ∧ needsSecond (packOp op low) = false ∧ parseImm 0 (packOp op low) = none := by
  rw [isShortOp_iff] at hop
  have h32 : op < 32 := by omega
  have hru6 : ¬isRu6 (op * 2 + low / 1024) = true := by rw [isRu6_iff]; omega
  have hu10 : ¬isU10 (op * 2 + low / 1024) = true := by rw [isU10_iff]; omega
  refine ⟨h32, ?_, by rw [parseImm, field_packOp_six h32 hlow, if_neg hru6, if_neg hu10]⟩
  rw [needsSecond_eq_false_iff, field_packOp_six h32 hlow, field_packOp h32 hlow]
  omega

/-- A one-parcel form with no immediate is read once its operand field is. -/
theorem Form.reads_of_short {pairs : PairTable} {f : Form} {op low : Nat} (hop : isShortOp op = true)
    (hlow : low < 2048) (hpack : f.pack pairs = [packOp op low])
    (hparse : parseImm 0 (packOp op low) = none → field (packOp op low) 11 5 = op →
      parseShort pairs (packOp op low) = .ok f) : f.Reads pairs := by
  obtain ⟨h32, hone, himm⟩ := isShortOp_packOp hop hlow
  exact .inl ⟨_, hpack, packOp_lt h32 hlow, fun _ => parse_eq_short hone (hparse himm (field_packOp h32 hlow))⟩

theorem reads_f3 {pairs : PairTable} {op a b c : Nat} (hop : isShortOp op = true) (ha : a < 12) (hb : b < 12)
    (hc : c < 12) : (Form.f3 op a b c).Reads pairs := by
  obtain ⟨hF3, hfa, hfb, hfc⟩ := packF3_fields (op := op) ha hb hc
  refine Form.reads_of_short hop (packF3_lt ha hb hc) rfl fun himm hfield => ?_
  simp [parseShort, himm, hF3, hfield, hfa, hfb, hfc]

theorem reads_f2 {pairs : PairTable} {op bit4 a b : Nat} (hp : pairsOk pairs = true) (hop : isShortOp op = true)
    (h4 : bit4 < 2) (ha : a < 12) (hb : b < 12) : (Form.f2 op bit4 a b).Reads pairs := by
  obtain ⟨hF3, hOnes, hbit, hlt⟩ := packF2_fields (op := op) hp h4 ha hb
  refine Form.reads_of_short hop hlt rfl fun himm hfield => ?_
  simp [parseShort, himm, hF3, hOnes, f2Operands_packF2 hp h4 ha hb, hfield, hbit]

theorem reads_f1 {pairs : PairTable} {op bit4 r : Nat} (hop : isShortOp op = true) (h4 : bit4 < 2) (hr : r < 16) :
    (Form.f1 op bit4 r).Reads pairs := by
  obtain ⟨hF3, hOnes, hlow⟩ := ones_fields (op := op) (low := bit4 * 16 + r) (by omega)
  refine Form.reads_of_short (low := 0b111111 * 32 + (bit4 * 16 + r)) hop (by omega)
    (by simp [Form.pack, Nat.add_assoc]) fun himm hfield => ?_
  generalize packOp op (0b111111 * 32 + (bit4 * 16 + r)) = w at hF3 hOnes hlow himm hfield
  have hbit : field w 4 1 = bit4 := by simp only [field] at *; omega
  have hreg : field w 0 4 = r := by simp only [field] at *; omega
  simp [parseShort, himm, hF3, hOnes, hfield, hbit, hreg]

/-! ### Forms with an immediate (R139 to R141, R164) -/

theorem field_imm_op {op low : Nat} (hop : op < 64) (hlow : low < 1024) : field (op * 1024 + low) 10 6 = op := by
  simp only [field]; omega

theorem needsSecond_imm {op low : Nat} (hop : op < 60) (hlow : low < 1024) : needsSecond (op * 1024 + low) = false := by
  rw [needsSecond_eq_false_iff, field_imm_op (by omega) hlow]
  simp only [field]; omega

theorem parse_eq_prefixed {pairs : PairTable} {p w : Nat} {f : Form} (hp : p < 1024) (h : parseImm p w = some f) :
    parse pairs (0b111100 * 1024 + p) w = .ok (f, 4) := by
  have hprefix : field (0b111100 * 1024 + p) 0 10 = p := by simp only [field]; omega
  rw [parse, if_pos (field_imm_op (by decide) hp), hprefix, h]

/-- A form with an immediate of n bits in its parcel is read from the short encoding and from the prefixed one, where
the parser puts the ten bits of PFIX above those of the parcel. -/
theorem Form.reads_of_imm {pairs : PairTable} {f : Form} {op low imm n : Nat} (hop : op < 60)
    (hlow : low + 2 ^ n ≤ 1024) (himm : imm < 2 ^ n * 1024) (hpack : f.pack pairs = packImm op low imm n)
    (hparse : ∀ p i, i < 2 ^ n → p * 2 ^ n + i = imm → parseImm p (op * 1024 + low + i) = some f) : f.Reads pairs := by
  by_cases hshort : imm < 2 ^ n
  · have hone : needsSecond (op * 1024 + low + imm) = false := by
      rw [Nat.add_assoc]; exact needsSecond_imm hop (by omega)
    refine .inl ⟨_, hpack.trans (if_pos hshort), by omega, fun w2 => parse_eq_short hone ?_⟩
    simp [parseShort, hparse 0 imm hshort (by omega)]
  · have hmod : imm % 2 ^ n < 2 ^ n := Nat.mod_lt _ (Nat.two_pow_pos n)
    have hdiv : imm / 2 ^ n < 1024 := Nat.div_lt_of_lt_mul himm
    refine .inr ⟨_, _, hpack.trans (if_neg hshort), by omega, by omega, parse_eq_prefixed hdiv ?_⟩
    exact hparse _ _ hmod (Nat.div_add_mod' imm _)

theorem reads_ru6 {pairs : PairTable} {op r imm : Nat} (hop : isRu6 op = true) (hr : r < 16) (himm : imm < 65536) :
    (Form.ru6 op r imm).Reads pairs := by
  have hrange := isRu6_iff.1 hop
  refine Form.reads_of_imm (n := 6) (by omega) (by omega) himm rfl fun p i hi hpi => ?_
  have hfop : field (op * 1024 + r * 64 + i) 10 6 = op := by simp only [field]; omega
  have hfr : field (op * 1024 + r * 64 + i) 6 4 = r := by simp only [field]; omega
  have hfi : field (op * 1024 + r * 64 + i) 0 6 = i := by simp only [field]; omega
  have hjoin : p * 64 + i = imm := hpi
  rw [parseImm, hfop, if_pos hop, hfr, hfi, hjoin]

theorem reads_u10 {pairs : PairTable} {op imm : Nat} (hop : isU10 op = true) (himm : imm < 1048576) :
    (Form.u10 op imm).Reads pairs := by
  have hrange := isU10_iff.1 hop
  have hru6 : ¬isRu6 op = true := by rw [isRu6_iff]; omega
  refine Form.reads_of_imm (n := 10) (by omega) (by decide) himm rfl fun p i hi hpi => ?_
  have hfi : field (op * 1024 + 0 + i) 0 10 = i := by simp only [field]; omega
  have hjoin : p * 1024 + i = imm := hpi
  rw [parseImm, hfi, Nat.add_zero, field_imm_op (by omega) hi, if_neg hru6, if_pos hop, hjoin]

/-! ### Extended forms (R144 to R147) -/

theorem parse_packEopr {pairs : PairTable} {low w2 : Nat} {f : Form} (hlow : low < 2048)
    (h : parseExtended pairs (packEopr low) w2 = .ok f) : parse pairs (packEopr low) w2 = .ok (f, 4) := by
  have hpfix : ¬field (packEopr low) 10 6 = 0b111100 := by
    rw [packEopr, field_packOp_six (by decide) hlow]; omega
  have heopr : field (packEopr low) 11 5 = 0b11111 := field_packOp (by decide) hlow
  rw [parse, if_neg hpfix, if_pos heopr, h]

/-- An extended form is read once both its parcels are. -/
theorem Form.reads_of_eopr {pairs : PairTable} {f : Form} {low w2 : Nat} (hpack : f.pack pairs = [packEopr low, w2])
    (hlow : low < 2048) (hw2 : w2 < 65536) (hparse : parseExtended pairs (packEopr low) w2 = .ok f) : f.Reads pairs :=
  .inr ⟨_, _, hpack, packOp_lt (by decide) hlow, hw2, parse_packEopr hlow hparse⟩

theorem reads_l3 {pairs : PairTable} {sec low a b c : Nat} (hsec : sec < 32) (hlow : low < 32) (ha : a < 12)
    (hb : b < 12) (hc : c < 12) : (Form.l3 sec low a b c).Reads pairs := by
  obtain ⟨hF3, hfa, hfb, hfc⟩ := packF3_fields (op := 0b11111) ha hb hc
  obtain ⟨-, hOnes, hflow⟩ := ones_fields (op := sec) hlow
  have hlt : 0b111111 * 32 + low < 2048 := by omega
  refine Form.reads_of_eopr rfl (packF3_lt ha hb hc) (packOp_lt hsec hlt) ?_
  simp only [parseExtended, packEopr, hF3, hOnes, if_true, field_packOp hsec hlt, hflow, hfa, hfb, hfc]

theorem reads_l6 {pairs : PairTable} {sec a b c d e f : Nat} (hsec : sec < 32) (ha : a < 12) (hb : b < 12)
    (hc : c < 12) (hd : d < 12) (he : e < 12) (hf : f < 12) : (Form.l6 sec a b c d e f).Reads pairs := by
  obtain ⟨hF3, hfa, hfb, hfc⟩ := packF3_fields (op := 0b11111) ha hb hc
  obtain ⟨hF3', hfd, hfe, hff⟩ := packF3_fields (op := sec) hd he hf
  have hlt := packF3_lt hd he hf
  refine Form.reads_of_eopr rfl (packF3_lt ha hb hc) (packOp_lt hsec hlt) ?_
  simp [parseExtended, packEopr, hF3, hF3', isOnes_eq_false_of_isF3 hF3', field_packOp hsec hlt, hfa, hfb, hfc, hfd,
    hfe, hff]

theorem reads_l5 {pairs : PairTable} {sec bit4 a b c d e : Nat} (hp : pairsOk pairs = true) (hsec : sec < 32)
    (h4 : bit4 < 2) (ha : a < 12) (hb : b < 12) (hc : c < 12) (hd : d < 12) (he : e < 12) :
    (Form.l5 sec bit4 a b c d e).Reads pairs := by
  obtain ⟨hF3, hfa, hfb, hfc⟩ := packF3_fields (op := 0b11111) ha hb hc
  obtain ⟨hF3', hOnes', hbit, hlt⟩ := packF2_fields (op := sec) hp h4 hd he
  refine Form.reads_of_eopr rfl (packF3_lt ha hb hc) (packOp_lt hsec hlt) ?_
  simp [parseExtended, packEopr, hF3, hF3', hOnes', f2Operands_packF2 hp h4 hd he, field_packOp hsec hlt, hbit, hfa,
    hfb, hfc]

theorem reads_l2 {pairs : PairTable} {bit4 sec a b : Nat} (hp : pairsOk pairs = true) (h4 : bit4 < 2)
    (hsec : sec < 65536) (ha : a < 12) (hb : b < 12) : (Form.l2 bit4 sec a b).Reads pairs := by
  obtain ⟨hF3, hOnes, hbit, hlt⟩ := packF2_fields (op := 0b11111) hp h4 ha hb
  refine Form.reads_of_eopr rfl hlt hsec ?_
  simp [parseExtended, packEopr, hF3, hOnes, f2Operands_packF2 hp h4 ha hb, hbit]

/-- The parser reads every form in range back from its parcels, with any table that can be decoded. -/
theorem Form.reads_of_ok {pairs : PairTable} {f : Form} (hp : pairsOk pairs = true) (hops : f.OperandsOk)
    (hrange : f.RangesOk) : f.Reads pairs := by
  cases f with
  | f3 => obtain ⟨ha, hb, hc⟩ := hops; exact reads_f3 hrange ha hb hc
  | f2 => obtain ⟨ha, hb⟩ := hops; obtain ⟨hop, h4⟩ := hrange; exact reads_f2 hp hop h4 ha hb
  | f1 => obtain ⟨hop, h4, hr⟩ := hrange; exact reads_f1 hop h4 hr
  | ru6 => obtain ⟨hop, hr, himm⟩ := hrange; exact reads_ru6 hop hr himm
  | u10 => obtain ⟨hop, himm⟩ := hrange; exact reads_u10 hop himm
  | l3 => obtain ⟨ha, hb, hc⟩ := hops; obtain ⟨hsec, hlow⟩ := hrange; exact reads_l3 hsec hlow ha hb hc
  | l2 => obtain ⟨ha, hb⟩ := hops; obtain ⟨h4, hsec⟩ := hrange; exact reads_l2 hp h4 hsec ha hb
  | l5 =>
    obtain ⟨⟨ha, hb, hc⟩, hd, he⟩ := hops; obtain ⟨hsec, h4⟩ := hrange; exact reads_l5 hp hsec h4 ha hb hc hd he
  | l6 => obtain ⟨⟨ha, hb, hc⟩, hd, he, hf⟩ := hops; exact reads_l6 hrange ha hb hc hd he hf

/-! ### The form of an instruction -/

@[simp] theorem reg_val (r : Reg) : reg r.val = r := Fin.ofNat_val_eq_self r

theorem Reg.small_iff {r : Reg} : r.small = true ↔ r.val < 12 := decide_eq_true_iff
theorem Us.ok_iff {u : Us} : u.ok = true ↔ u.val < 12 := decide_eq_true_iff

theorem formOf_operandsOk {i : Instr} (h : i.wellFormed = true) : (formOf i).OperandsOk := by
  cases i <;> simp_all [Instr.wellFormed, formOf, Form.OperandsOk, Reg.small_iff, Us.ok_iff]

theorem formOf_rangesOk (i : Instr) : (formOf i).RangesOk := by
  have h16 (u : BitVec 16) : u.toNat < 65536 := u.isLt
  have h20 (u : BitVec 20) : u.toNat < 1048576 := u.isLt
  have h32 (r : Reg) : r.val < 32 := r.isLt.trans (by decide)
  have hbit4 (r : Reg) : 16 + r.val < 32 := by omega
  cases i <;> simp [formOf, Form.RangesOk, isShortOp, isRu6, isU10, h16, h20, h32, hbit4]

/-- The form of an instruction stands for it: format by format, in the order of `Form` (R138 to R147). -/
theorem instrOf_formOf {i : Instr} (h : i.wellFormed = true) : instrOf (formOf i) = .ok i := by
  cases i
  case stwi | ldwi | add | sub | shl | shr | eq | and | or | ldw | ld16s | ld8u | addi | subi | shli | shri | eqi |
      tsetr | lss | lsu => simp [formOf, instrOf, instr3]
  case tinitpc | getst | tinitdp | outt | tinitsp | setd | tinitcp | tsetmr | eet | andnot | eef | sext | sexti |
      getts | setpt | zext | zexti | outct | outcti | getr | inct | not | int | neg | endin | mkmsk | mkmski | out |
      outshr | in_ | inshr | peek | testct | setpsc | testwct | chkct | chkcti => simp [formOf, instrOf, instr2]
  case edu | eeu | waitet | waitef | freer | mjoin | tstart | msync | bla | bau | bru | setsp | setdp | setcp |
      dgetreg | setev | kcall | setv | ecallf | ecallt | clrpt | syncr =>
    simp [formOf, instrOf, instr1, Reg.small_iff.1 h]
  case waiteu | clre | ssync | freet | dcall | kret | dret | setkep | ldspc | stspc | ldssr | stssr | stsed | stet |
      geted | getet | dentsp | drestsp | getid | getkep | getksp | ldsed | ldet => rfl
  case brft | brbt | brff | brbf | setci => simp [formOf, instrOf, instrRu6, Reg.small_iff.1 h]
  case stwdp | stwsp | ldwdp | ldwsp | ldawdp | ldawsp | ldc | ldwcp => simp [formOf, instrOf, instrRu6, instrRu6Cap]
  case brfu | blat | extdp | kcalli | brbu | entsp | extsp | retsp | clrsr | setsr | kentsp | krestsp | getsr |
      ldawcp =>
    simp [formOf, instrOf, instrRu6Cap, instrU6]
  case blrf | blrb | ldapf | ldapb | blacp | ldwcpl => simp [formOf, instrOf, instrU10]
  case stw | xor | ashr | ldawf | ldawb | lda16f | lda16b | mul | divs | divu | st16 | st8 | ashri | outpw | inpw |
      ldawfi | ldawbi | crc | rems | remu => simp [formOf, instrOf, instrL3]
  case crc8 _ r _ _ | maccu _ r _ _ | maccs _ r _ _ =>
    have hr : r.val < 12 := by simp_all [Instr.wellFormed, Reg.small_iff]
    simp [formOf, instrOf, instrL4, hr, Nat.mod_eq_of_lt r.isLt, Nat.div_eq_of_lt r.isLt]
  case bitrev | clz | tinitlr | setps | testlcl | setrdy | setn | byterev | setclk | getps | getd | settw | setc |
      getn =>
    simp [formOf, instrOf, instrL2]
  case ldivu | ladd | lsub => simp [formOf, instrOf, instrL5]
  case lmul => simp [formOf, instrOf, instrL6]

/-! ### Decoding the encoding -/

/-- The decoder answers what the form of the parcels stands for, where the revision has it. -/
theorem decode_eq_ok_iff {rev : Revision} {pairs : PairTable} {w1 w2 : Parcel} {i : Instr} {len : Nat} :
    decode rev pairs w1 w2 = .ok (i, len) ↔
      ∃ f, parse pairs w1.toNat w2.toNat = .ok (f, len) ∧ instrOf f = .ok i ∧ inRevision rev i = true := by
  constructor
  · intro h
    rw [decode] at h
    split at h
    next => cases h
    next hparse =>
      split at h
      next => cases h
      next hinstr =>
        split_ifs at h with hrev
        cases h
        exact ⟨_, hparse, hinstr, hrev⟩
  · rintro ⟨f, hparse, hinstr, hrev⟩
    simp [decode, hparse, hinstr, hrev]

/-- Settles O2: the form of a well-formed instruction is in range, is parsed from its own parcels and stands for the
instruction. -/
theorem decodeEncode : Obligations.DecodeEncode := by
  intro rev pairs i hp hwf hrev
  have hdecode {w1 w2 : Parcel} {len : Nat} (h : parse pairs w1.toNat w2.toNat = .ok (formOf i, len)) :
      decode rev pairs w1 w2 = .ok (i, len) := decode_eq_ok_iff.2 ⟨_, h, instrOf_formOf hwf, hrev⟩
  have htoNat {w : Nat} (h : w < 65536) : (BitVec.ofNat 16 w).toNat = w := Nat.mod_eq_of_lt h
  obtain ⟨w, hpack, hw, hparse⟩ | ⟨w1, w2, hpack, hw1, hw2, hparse⟩ :=
    Form.reads_of_ok hp (formOf_operandsOk hwf) (formOf_rangesOk i)
  · refine .inl ⟨BitVec.ofNat 16 w, by rw [encode, hpack]; rfl, fun w2 => hdecode ?_⟩
    rw [htoNat hw, hparse]
  · refine .inr ⟨BitVec.ofNat 16 w1, BitVec.ofNat 16 w2, by rw [encode, hpack]; rfl, hdecode ?_⟩
    rw [htoNat hw1, htoNat hw2, hparse]

/-! ### What the parser answers -/

theorem parseImm_operandsOk {p w : Nat} {f : Form} (h : parseImm p w = some f) : f.OperandsOk := by
  rw [parseImm] at h
  split_ifs at h <;> cases h <;> trivial

theorem parseShort_operandsOk {pairs : PairTable} {w : Nat} {f : Form} (h : parseShort pairs w = .ok f) :
    f.OperandsOk := by
  rw [parseShort] at h
  split at h
  next himm => cases h; exact parseImm_operandsOk himm
  next =>
    split_ifs at h with hF3 hOnes
    · cases h; exact f3_lt hF3
    · cases h; trivial
    · split at h
      next hF2 => cases h; exact f2Operands_lt hF2
      next => cases h

theorem parseExtended_operandsOk {pairs : PairTable} {w1 w2 : Nat} {f : Form}
    (h : parseExtended pairs w1 w2 = .ok f) : f.OperandsOk := by
  rw [parseExtended] at h
  split_ifs at h with hF3 hOnes2 hF3' hOnes1
  · cases h; exact f3_lt hF3
  · cases h; exact ⟨f3_lt hF3, f3_lt hF3'⟩
  · split at h
    next hF2 => cases h; exact ⟨f3_lt hF3, f2Operands_lt hF2⟩
    next => cases h
  · split at h
    next hF2 => cases h; exact f2Operands_lt hF2
    next => cases h

/-- Whatever the parcels, the operands of the form are in range, and its length follows from the first parcel (R131). -/
theorem parse_ok {pairs : PairTable} {w1 w2 len : Nat} {f : Form} (h : parse pairs w1 w2 = .ok (f, len)) :
    f.OperandsOk ∧ len = if needsSecond w1 then 4 else 2 := by
  rw [parse] at h
  split_ifs at h with hpfix heopr <;> split at h
  next hparse => cases h; exact ⟨parseImm_operandsOk hparse, by simp [needsSecond, hpfix]⟩
  next => cases h
  next hparse => cases h; exact ⟨parseExtended_operandsOk hparse, by simp [needsSecond, heopr]⟩
  next => cases h
  next hparse =>
    cases h
    exact ⟨parseShort_operandsOk hparse, by rw [needsSecond_eq_false_iff.2 ⟨hpfix, heopr⟩]; rfl⟩
  next => cases h

/-! ### The instructions of the opcode tables -/

theorem small_reg {n : Nat} (h : n < 12) : Reg.small (reg n) = true := by
  have hval : (reg n).val = n := Nat.mod_eq_of_lt (by omega)
  rwa [Reg.small_iff, hval]

theorem ok_reg {n : Nat} (h : n < 12) : Us.ok (reg n) = true := small_reg h

section Tables
variable {op sec low bit4 a b c d e f r n : Nat} {i : Instr}

theorem instr3_wellFormed (h : instr3 op a b c = some i) (ha : a < 12) (hb : b < 12) (hc : c < 12) :
    i.wellFormed = true := by
  unfold instr3 at h
  split at h <;> cases h <;> simp [Instr.wellFormed, small_reg, ok_reg, ha, hb, hc]

theorem instr2_wellFormed (h : instr2 op bit4 a b = some i) (ha : a < 12) (hb : b < 12) : i.wellFormed = true := by
  unfold instr2 at h
  split at h <;> cases h <;> simp [Instr.wellFormed, small_reg, ok_reg, ha, hb]

theorem instr1_wellFormed (h : instr1 op bit4 r = some i) (hr : r < 12) : i.wellFormed = true := by
  unfold instr1 at h
  split at h <;> cases h <;> exact small_reg hr

theorem instr0_wellFormed (h : instr0 op bit4 r = some i) : i.wellFormed = true := by
  unfold instr0 at h
  split at h <;> cases h <;> rfl

theorem instrRu6_wellFormed (h : instrRu6 op r n = some i) (hr : r < 12) : i.wellFormed = true := by
  unfold instrRu6 at h
  split at h <;> cases h <;> simp [Instr.wellFormed, small_reg hr]

theorem instrRu6Cap_wellFormed (h : instrRu6Cap op r n = some i) : i.wellFormed = true := by
  unfold instrRu6Cap at h
  split at h <;> cases h <;> rfl

theorem instrU6_wellFormed (h : instrU6 op r n = some i) : i.wellFormed = true := by
  unfold instrU6 at h
  split at h <;> cases h <;> rfl

theorem instrU10_wellFormed (h : instrU10 op n = some i) : i.wellFormed = true := by
  unfold instrU10 at h
  split at h <;> cases h <;> rfl

theorem instrL3_wellFormed (h : instrL3 sec low a b c = some i) (ha : a < 12) (hb : b < 12) (hc : c < 12) :
    i.wellFormed = true := by
  unfold instrL3 at h
  split at h <;> cases h <;> simp [Instr.wellFormed, small_reg, ok_reg, ha, hb, hc]

theorem instrL4_wellFormed (h : instrL4 sec bit4 a b c d = some i) (ha : a < 12) (hb : b < 12) (hc : c < 12)
    (hd : d < 12) : i.wellFormed = true := by
  unfold instrL4 at h
  split at h <;> cases h <;> simp [Instr.wellFormed, small_reg, ha, hb, hc, hd]

theorem instrL2_wellFormed (h : instrL2 bit4 sec a b = some i) (ha : a < 12) (hb : b < 12) : i.wellFormed = true := by
  unfold instrL2 at h
  split at h <;> cases h <;> simp [Instr.wellFormed, small_reg, ha, hb]

theorem instrL5_wellFormed (h : instrL5 sec bit4 a b c d e = some i) (ha : a < 12) (hb : b < 12) (hc : c < 12)
    (hd : d < 12) (he : e < 12) : i.wellFormed = true := by
  unfold instrL5 at h
  split at h <;> cases h <;> simp [Instr.wellFormed, small_reg, ha, hb, hc, hd, he]

theorem instrL6_wellFormed (h : instrL6 sec a b c d e f = some i) (ha : a < 12) (hb : b < 12) (hc : c < 12)
    (hd : d < 12) (he : e < 12) (hf : f < 12) : i.wellFormed = true := by
  unfold instrL6 at h
  split at h <;> cases h
  simp [Instr.wellFormed, small_reg, ha, hb, hc, hd, he, hf]

end Tables

theorem elim_eq_ok_iff {o : Option Instr} {e : DecodeError} {i : Instr} :
    o.elim (.error e) Except.ok = Except.ok i ↔ o = some i := by
  cases o <;> simp

/-- A form with operands in range stands for a well-formed instruction or for none: the tables of 1r, ru6 and l4r are
entered only with 0..11 in the register field (R137, R143, R146). -/
theorem instrOf_wellFormed {f : Form} {i : Instr} (hops : f.OperandsOk) (h : instrOf f = .ok i) :
    i.wellFormed = true := by
  cases f <;> simp only [instrOf, elim_eq_ok_iff] at h
  case f3 => obtain ⟨ha, hb, hc⟩ := hops; exact instr3_wellFormed h ha hb hc
  case f2 => obtain ⟨ha, hb⟩ := hops; exact instr2_wellFormed h ha hb
  case f1 =>
    split_ifs at h with hr
    · exact instr1_wellFormed h hr
    · exact instr0_wellFormed h
  case ru6 =>
    split_ifs at h with hr
    · exact instrRu6_wellFormed h hr
    · obtain hcap | ⟨-, hu6⟩ := Option.or_eq_some_iff.1 h
      · exact instrRu6Cap_wellFormed hcap
      · exact instrU6_wellFormed hu6
  case u10 => exact instrU10_wellFormed h
  case l3 =>
    obtain ⟨ha, hb, hc⟩ := hops
    split_ifs at h with hd
    · exact instrL4_wellFormed h ha hb hc hd
    · exact instrL3_wellFormed h ha hb hc
  case l2 => obtain ⟨ha, hb⟩ := hops; exact instrL2_wellFormed h ha hb
  case l5 => obtain ⟨⟨ha, hb, hc⟩, hd, he⟩ := hops; exact instrL5_wellFormed h ha hb hc hd he
  case l6 => obtain ⟨⟨ha, hb, hc⟩, hd, he, hf⟩ := hops; exact instrL6_wellFormed h ha hb hc hd he hf

/-- Settles O3: the parser answers forms with operands in range, and such a form stands for well-formed instructions
only. -/
theorem decodedIsWellFormed : Obligations.DecodedIsWellFormed := by
  intro rev pairs w1 w2 i len h
  obtain ⟨f, hparse, hinstr, hrev⟩ := decode_eq_ok_iff.1 h
  obtain ⟨hops, hlen⟩ := parse_ok hparse
  exact ⟨instrOf_wellFormed hops hinstr, hrev, hlen⟩

/-! ### Words written out -/

/-- Settles O1: each word is decoded by evaluation. -/
theorem decodeWords : Obligations.DecodeWords :=
  ⟨rfl, rfl, rfl, rfl, rfl, rfl, rfl, rfl, rfl, rfl, rfl, rfl, rfl, rfl, rfl, rfl, rfl, by decide⟩

end Sys2Proof
end

section
/-! The data access instructions (R201 to R227): the address and constant forms write one register, each load goes
through `loadReg` and each store through `storeVal`, at an address that meets the checks of R97. -/
namespace Sys2Proof.Machine

/-! ### Address and constant forms -/

/-- Settles O11: each form writes its one destination, at the address arithmetic of R201. -/
theorem addressForms : Obligations.AddressForms := by
  intro s d b i us u w
  simp only [List.forall_mem_cons, List.not_mem_nil, false_imp_iff, implies_true, and_true]
  refine ⟨?ldawsp, ?ldawdp, ?ldawcp, ?ldc, ?ldapf, ?ldapb, ?ldawfi, ?ldawbi, ?ldawf, ?ldawb, ?lda16f, ?lda16b⟩
  case ldc => exact writeReg_spec s d (immWord u)
  case ldawsp | ldawdp | ldawcp | ldapf | ldapb | ldawfi | ldawbi | ldawf | ldawb | lda16f | lda16b =>
    unfold exec; exact writeReg_spec s _ _

/-! ### Values that loads write (R94, R222) -/

/-- The extension of R288 from 16 bits, on a word that holds 16 bits, is the extension of those bits. -/
theorem signExtend_sixteen (h : BitVec 16) : signExtend (h.setWidth 32) 16 = h.signExtend 32 := by
  apply BitVec.eq_of_getLsbD_eq
  intro k hk
  rw [signExtend_getLsbD _ _ _ hk, BitVec.getLsbD_signExtend]
  by_cases hlow : k < 16
  · simp [hlow, hk]
  · simp [hlow, hk, BitVec.msb_eq_getLsbD_last]

section Completion

variable {s : State} {a : Word}

/-! ### Loads that complete -/

theorem loadWord_spec {d : Reg} (haligned : a.toNat % 4 = 0) (hvalid : memValid s.plat a.toNat = true) :
    ∃ t, loadReg d a 4 id s = .next t ∧ s.becomes t (s.cur.put d
      (s.byte (a.toNat + 3) ++ s.byte (a.toNat + 2) ++ s.byte (a.toNat + 1) ++ s.byte a.toNat)) := by
  rw [← s.memRead_four a]
  exact loadReg_legal d a 4 id s ((readable_iff _ a 4).2 ⟨haligned, hvalid⟩)

theorem loadHalf_spec {d : Reg} (haligned : a.toNat % 2 = 0) (hvalid : memValid s.plat a.toNat = true) :
    ∃ t, loadReg d a 2 (fun h => signExtend h 16) s = .next t ∧ s.becomes t (s.cur.put d
      ((s.byte (a.toNat + 1) ++ s.byte a.toNat).signExtend 32)) := by
  rw [← signExtend_sixteen, ← s.memRead_two a]
  exact loadReg_legal d a 2 _ s ((readable_iff _ a 2).2 ⟨haligned, hvalid⟩)

theorem loadByte_spec {d : Reg} (hvalid : memValid s.plat a.toNat = true) :
    ∃ t, loadReg d a 1 id s = .next t ∧ s.becomes t (s.cur.put d ((s.byte a.toNat).setWidth 32)) := by
  rw [← s.memRead_one a]
  exact loadReg_legal d a 1 id s ((readable_one _ a).trans hvalid)

/-! ### Stores that complete -/

theorem storeVal_spec {n : Nat} {v : Word} (hwf : Memory.wf s.mem = true) (haligned : a.toNat % n = 0)
    (hvalid : memValid s.plat a.toNat = true) (hrom : inRom s.plat a.toNat = false) :
    ∃ t, storeVal a n v s = .next t ∧ s.stores t s.cur a n v :=
  storeVal_legal a n v s hwf ((writable_iff _ a n).2 ⟨haligned, hvalid, hrom⟩)

end Completion

/-- Settles O12: each form is a load through `loadReg`, which reads the bytes at the address once the checks of R97
hold. -/
theorem loads : Obligations.Loads := by
  intro s d b i us u w
  simp only [List.forall_mem_cons, List.not_mem_nil, false_imp_iff, implies_true, and_true]
  refine ⟨⟨?ldwsp, ?ldwdp, ?ldwcp, ?ldwcpl, ?ldwi, ?ldw⟩, ?ld16s, ?ld8u⟩
  case ldwsp | ldwdp | ldwcp | ldwcpl | ldwi | ldw => unfold exec; exact loadWord_spec
  case ld16s => exact loadHalf_spec
  case ld8u => exact loadByte_spec

/-- Settles O13: each form is a store through `storeVal`, which writes the low bytes of the source register once the
checks of R97 hold. -/
theorem stores : Obligations.Stores := by
  intro s src b i us u hwf
  simp only [List.forall_mem_cons, List.not_mem_nil, false_imp_iff, implies_true, and_true]
  refine ⟨?stwsp, ?stwdp, ?stwi, ?stw, ?st16, ?st8⟩
  case stwsp | stwdp | stwi | stw | st16 | st8 => unfold exec; exact storeVal_spec hwf

end Sys2Proof.Machine
end

section
/-! The expression instructions (R261 to R294): each form writes one register, so an obligation comes down to what is
written: the lemmas below say it as a number or bit by bit. The divisions that cannot deliver a result raise. -/
namespace Sys2Proof.Machine

/-- A register write whose value is known by a property. -/
theorem writeReg_value {p : Word → Prop} {s : State} {d : Reg} {v : Word} (hv : p v) :
    ∃ t w, writeReg d v s = .next t ∧ s.becomes t (s.cur.put d w) ∧ p w := by
  obtain ⟨t, hwrite, hframe⟩ := writeReg_spec s d v
  exact ⟨t, v, hwrite, hframe, hv⟩

/-! ### Sums, differences and products mod 2^32 (R261 to R265, R281) -/

theorem usWord_toNat (u : Us) : (usWord u).toNat = u.val := by
  rw [usWord, word, BitVec.toNat_ofNat]
  exact Nat.mod_eq_of_lt (by omega)

theorem add_toNat_cast (a b : Word) : ((a + b).toNat : Int) = ((a.toNat : Int) + b.toNat) % 2 ^ 32 := by
  rw [BitVec.toNat_add]; push_cast; rfl

theorem sub_toNat_cast (a b : Word) : ((a - b).toNat : Int) = ((a.toNat : Int) - b.toNat) % 2 ^ 32 := by
  rw [BitVec.toNat_sub]; omega

theorem neg_toNat_cast (a : Word) : ((-a).toNat : Int) = (-(a.toNat : Int)) % 2 ^ 32 := by
  rw [BitVec.toNat_neg]; omega

theorem mul_toNat_cast (a b : Word) : ((a * b).toNat : Int) = ((a.toNat : Int) * b.toNat) % 2 ^ 32 := by
  rw [BitVec.toNat_mul]; push_cast; rfl

/-! ### Comparisons as truth values (R266 to R269) -/

/-- What a comparison writes, from the proposition that its test decides. -/
theorem writeReg_boolWord {b : Bool} {p : Prop} [Decidable p] {s : State} {c : Reg} (h : b = true ↔ p) :
    ∃ t, writeReg c (boolWord b) s = .next t ∧ s.becomes t (s.cur.put c (if decide p then 1#32 else 0#32)) := by
  rw [← Bool.decide_congr h, Bool.decide_eq_true]
  exact writeReg_spec s c (boolWord b)

theorem beq_iff_toNat_eq {a b : Word} : (a == b) = true ↔ a.toNat = b.toNat :=
  beq_iff_eq.trans BitVec.toNat_inj.symm

theorem beq_usWord_iff {a : Word} {u : Us} : (a == usWord u) = true ↔ a.toNat = u.val := by
  rw [beq_iff_toNat_eq, usWord_toNat]

/-- Settles O15: each form writes the sum, difference, product, bits or truth value that the section's lemmas give. -/
theorem arithmeticLogicCompare : Obligations.ArithmeticLogicCompare := by
  intro s d x y us
  simp only [List.forall_mem_cons, List.not_mem_nil, false_imp_iff, implies_true, and_true]
  refine ⟨⟨?add, ?addi, ?sub, ?subi, ?neg, ?mul⟩, ⟨?and, ?or, ?xor, ?not, ?andnot⟩, ?eq, ?eqi, ?lss, ?lsu⟩
  case add => exact writeReg_value (add_toNat_cast (s.x x) (s.x y))
  case addi => exact writeReg_value (usWord_toNat us ▸ add_toNat_cast (s.x x) (usWord us))
  case sub => exact writeReg_value (sub_toNat_cast (s.x x) (s.x y))
  case subi => exact writeReg_value (usWord_toNat us ▸ sub_toNat_cast (s.x x) (usWord us))
  case neg => exact writeReg_value (neg_toNat_cast (s.x x))
  case mul => exact writeReg_value (mul_toNat_cast (s.x x) (s.x y))
  case and => exact writeReg_value fun k _ => BitVec.getLsbD_and
  case or => exact writeReg_value fun k _ => BitVec.getLsbD_or
  case xor => exact writeReg_value fun k _ => BitVec.getLsbD_xor
  case not => exact writeReg_value fun k hk => by simp [hk]
  case andnot => exact writeReg_value fun k hk => by simp [hk]
  case eq => exact writeReg_boolWord beq_iff_toNat_eq
  case eqi => exact writeReg_boolWord beq_usWord_iff
  case lss => exact writeReg_boolWord BitVec.slt_iff_toInt_lt
  case lsu => exact writeReg_boolWord BitVec.ult_iff_toNat_lt

/-! ### Shifts by any distance (R275 to R280) -/

/-- A distance of 32 or more shifts every bit out, so the model's shifts are the shifts of bit vectors. -/
theorem shiftLeft_eq (x : Word) (n : Nat) : shiftLeft x n = x <<< n := by
  rw [shiftLeft]
  split
  · rfl
  · rw [BitVec.shiftLeft_eq_zero (by omega)]

theorem shiftRight_eq (x : Word) (n : Nat) : shiftRight x n = x >>> n := by
  rw [shiftRight]
  split
  · rfl
  · rw [BitVec.ushiftRight_eq_zero (by omega)]

/-- A distance of 31 already leaves nothing but copies of the sign. -/
theorem arithRight_eq (x : Word) (n : Nat) : arithRight x n = x.sshiftRight n := by
  rw [arithRight]
  obtain hn | hn := Nat.le_total n 31
  · rw [Nat.min_eq_left hn]
  · apply BitVec.eq_of_getLsbD_eq
    intro k hk
    rw [Nat.min_eq_right hn, BitVec.getLsbD_sshiftRight, BitVec.getLsbD_sshiftRight, BitVec.msb_eq_getLsbD_last]
    obtain rfl | hpos := Nat.eq_zero_or_pos k
    · obtain rfl | hn := Nat.eq_or_lt_of_le hn
      · rfl
      · simp [show ¬ n < 32 by omega]
    · simp [show ¬ 31 + k < 32 by omega, show ¬ n + k < 32 by omega]

theorem shiftLeft_toNat (x : Word) (n : Nat) : (shiftLeft x n).toNat = x.toNat * 2 ^ n % 2 ^ 32 := by
  rw [shiftLeft_eq, BitVec.toNat_shiftLeft, Nat.shiftLeft_eq]

theorem shiftRight_toNat (x : Word) (n : Nat) : (shiftRight x n).toNat = x.toNat / 2 ^ n := by
  rw [shiftRight_eq, BitVec.toNat_ushiftRight, Nat.shiftRight_eq_div_pow]

theorem arithRight_toInt (x : Word) (n : Nat) : (arithRight x n).toInt = x.toInt / 2 ^ n := by
  rw [arithRight_eq, BitVec.toInt_sshiftRight, Int.shiftRight_eq_div_pow, Int.natCast_pow]
  rfl

/-- The table of R150. -/
theorem bitp_table :
    [bitp 0, bitp 1, bitp 2, bitp 3, bitp 4, bitp 5, bitp 6, bitp 7, bitp 8, bitp 9, bitp 10, bitp 11] =
      [32, 1, 2, 3, 4, 5, 6, 7, 8, 16, 24, 32] := rfl

/-- Settles O16: the two forms of a shift differ only in where the distance comes from. -/
theorem shifts : Obligations.Shifts := by
  intro s d x y b
  simp only [List.forall_mem_cons, List.not_mem_nil, false_imp_iff, implies_true, and_true]
  refine ⟨⟨?shl, ?shli⟩, ⟨?shr, ?shri⟩, ⟨?ashr, ?ashri⟩, bitp_table⟩
  case shl | shli => unfold exec; exact writeReg_value (shiftLeft_toNat _ _)
  case shr | shri => unfold exec; exact writeReg_value (shiftRight_toNat _ _)
  case ashr | ashri => unfold exec; exact writeReg_value (arithRight_toInt _ _)

/-! ### Divisions (R282 to R285) -/

theorem word_eq_zero_iff {w : Word} : w = 0#32 ↔ w.toNat = 0 := BitVec.toNat_inj.symm

theorem wordOfInt_toInt (i : Int) : (wordOfInt i).toInt = i.bmod (2 ^ 32) := BitVec.toInt_ofInt i

/-- The signed divisions cannot deliver a result exactly where the divisor is 0 or the quotient is 2^31. -/
theorem divsTraps_iff {x y : Word} :
    divsTraps x y = true ↔ y.toNat = 0 ∨ (x.toInt = -2147483648 ∧ y.toInt = -1) := by
  have hmin : x = 0x80000000#32 ↔ x.toInt = -2147483648 := BitVec.toInt_inj.symm
  have hneg : y = 0xFFFFFFFF#32 ↔ y.toInt = -1 := BitVec.toInt_inj.symm
  rw [divsTraps, Bool.or_eq_true, Bool.and_eq_true, decide_eq_true_iff, decide_eq_true_iff, decide_eq_true_iff, hmin,
    hneg, word_eq_zero_iff]

theorem divsTraps_eq_false_iff {x y : Word} :
    divsTraps x y = false ↔ y.toNat ≠ 0 ∧ ¬(x.toInt = -2147483648 ∧ y.toInt = -1) := by
  rw [← Bool.not_eq_true, divsTraps_iff, not_or]

/-- Only the quotient 2^31 is out of the range of a word. -/
theorem wordOfInt_tdiv_toInt {x y : Word} (h : ¬(x.toInt = -2147483648 ∧ y.toInt = -1)) :
    (wordOfInt (x.toInt.tdiv y.toInt)).toInt = x.toInt.tdiv y.toInt := by
  have hne : x ≠ BitVec.intMin 32 ∨ y ≠ -1#32 := by
    rw [← not_and_or]
    rintro ⟨rfl, rfl⟩
    exact h ⟨rfl, rfl⟩
  rw [wordOfInt_toInt, ← BitVec.toInt_sdiv, BitVec.toInt_sdiv_of_ne_or_ne x y hne]

theorem wordOfInt_tmod_toInt (x y : Word) : (wordOfInt (x.toInt.tmod y.toInt)).toInt = x.toInt.tmod y.toInt := by
  rw [wordOfInt_toInt, ← BitVec.toInt_srem, BitVec.toInt_bmod_cancel]

section Cases

variable {s : State} {d x y : Reg}

/-! #### Divisions that complete -/

theorem execDivs_completes (hy : (s.x y).toNat ≠ 0) (hover : ¬((s.x x).toInt = -2147483648 ∧ (s.x y).toInt = -1)) :
    ∃ t v, execDivs d x y s = .next t ∧ s.becomes t (s.cur.put d v) ∧
      v.toInt = (s.x x).toInt.tdiv (s.x y).toInt := by
  rw [execDivs, divsTraps_eq_false_iff.2 ⟨hy, hover⟩]
  exact writeReg_value (wordOfInt_tdiv_toInt hover)

theorem execRems_completes (hy : (s.x y).toNat ≠ 0) (hover : ¬((s.x x).toInt = -2147483648 ∧ (s.x y).toInt = -1)) :
    ∃ t v, execRems d x y s = .next t ∧ s.becomes t (s.cur.put d v) ∧
      v.toInt = (s.x x).toInt.tmod (s.x y).toInt := by
  rw [execRems, divsTraps_eq_false_iff.2 ⟨hy, hover⟩]
  exact writeReg_value (wordOfInt_tmod_toInt _ _)

theorem execDivu_completes (hy : (s.x y).toNat ≠ 0) :
    ∃ t v, execDivu d x y s = .next t ∧ s.becomes t (s.cur.put d v) ∧ v.toNat = (s.x x).toNat / (s.x y).toNat := by
  rw [execDivu, if_neg (mt word_eq_zero_iff.1 hy)]
  exact writeReg_value BitVec.toNat_udiv

theorem execRemu_completes (hy : (s.x y).toNat ≠ 0) :
    ∃ t v, execRemu d x y s = .next t ∧ s.becomes t (s.cur.put d v) ∧ v.toNat = (s.x x).toNat % (s.x y).toNat := by
  rw [execRemu, if_neg (mt word_eq_zero_iff.1 hy)]
  exact writeReg_value BitVec.toNat_umod

/-! #### Divisions that raise -/

theorem execDivs_traps (h : divsTraps (s.x x) (s.x y) = true) :
    ∃ t, execDivs d x y s = .next t ∧ s.trapped t 7#32 0#32 := by
  rw [execDivs, if_pos h]; exact raised_spec s .arithmetic 0#32

theorem execRems_traps (h : divsTraps (s.x x) (s.x y) = true) :
    ∃ t, execRems d x y s = .next t ∧ s.trapped t 7#32 0#32 := by
  rw [execRems, if_pos h]; exact raised_spec s .arithmetic 0#32

theorem execDivu_traps (h : (s.x y).toNat = 0) : ∃ t, execDivu d x y s = .next t ∧ s.trapped t 7#32 0#32 := by
  rw [execDivu, if_pos (word_eq_zero_iff.2 h)]; exact raised_spec s .arithmetic 0#32

theorem execRemu_traps (h : (s.x y).toNat = 0) : ∃ t, execRemu d x y s = .next t ∧ s.trapped t 7#32 0#32 := by
  rw [execRemu, if_pos (word_eq_zero_iff.2 h)]; exact raised_spec s .arithmetic 0#32

/-- A quotient fits one word exactly where the divisor is above the high word of the dividend (R623). -/
theorem execLdivu_traps {e v : Reg} (h : (s.x y).toNat ≤ (s.x v).toNat) :
    ∃ t, execLdivu d e x y v s = .next t ∧ s.trapped t 7#32 0#32 := by
  have hule : (s.x y).ule (s.x v) = true := BitVec.ule_iff_le.2 h
  rw [execLdivu, if_pos (by rw [hule, Bool.or_true])]
  exact raised_spec s .arithmetic 0#32

end Cases

/-- Settles O17: a division that completes writes the quotient or remainder, which is the number in a word. -/
theorem division : Obligations.Division := by
  intro s d x y hy
  simp only [List.forall_mem_cons, List.not_mem_nil, false_imp_iff, implies_true, and_true]
  exact ⟨⟨execDivu_completes hy, execRemu_completes hy⟩,
    fun hover => ⟨execDivs_completes hy hover, execRems_completes hy hover⟩⟩

/-- Settles O18: a zero divisor stops all four divisions, overflow the signed two, and a quotient of more than one word
the long one. -/
theorem arithmeticTraps : Obligations.ArithmeticTraps := by
  intro s d e x y v
  simp only [List.forall_mem_cons, List.not_mem_nil, false_imp_iff, implies_true, and_true]
  refine ⟨fun hzero => ?zero, fun hmin hneg => ?overflow, execLdivu_traps⟩
  case zero =>
    have htraps : divsTraps (s.x x) (s.x y) = true := divsTraps_iff.2 (.inl hzero)
    exact ⟨execDivs_traps htraps, execRems_traps htraps, execDivu_traps hzero, execRemu_traps hzero⟩
  case overflow =>
    have htraps := divsTraps_iff.2 (.inr ⟨hmin, hneg⟩)
    exact ⟨execDivs_traps htraps, execRems_traps htraps⟩

/-! ### Masks and extensions (R286 to R291) -/

theorem maskWord_getLsbD_of_lt {n k : Nat} (hk : k < 32) : (maskWord n).getLsbD k = decide (k < n) := by
  simp only [maskWord_getLsbD, hk, and_true]

/-- Settles O19: the register and the immediate forms write the mask or the extension of the same number of bits. -/
theorem masksAndExtensions : Obligations.MasksAndExtensions := by
  intro s d x b
  simp only [List.forall_mem_cons, List.not_mem_nil, false_imp_iff, implies_true, and_true]
  refine ⟨⟨?mkmsk, ?mkmski⟩, ⟨?zext, ?zexti⟩, ⟨?sext, ?sexti⟩, bitp_table⟩
  case mkmsk | mkmski => unfold exec; exact writeReg_value fun _ hk => maskWord_getLsbD_of_lt hk
  case zext | zexti => unfold exec; exact writeReg_value (zeroExtend_getLsbD _ _)
  case sext | sexti => unfold exec; exact writeReg_value (signExtend_getLsbD _ _)

/-! ### Reversals and leading zeros (R292 to R294) -/

theorem testBit_double_add_zero (n : Nat) (b : Bool) : (n * 2 + b.toNat).testBit 0 = b := by
  rw [Nat.mul_comm, ← Nat.bit_val, Nat.testBit_bit_zero]

theorem testBit_double_add_succ (n : Nat) (b : Bool) (k : Nat) :
    (n * 2 + b.toNat).testBit (k + 1) = n.testBit k := by
  rw [Nat.mul_comm, ← Nat.bit_val, Nat.testBit_bit_succ]

/-- A number built by appending m bits at the right holds the first of them highest. -/
theorem testBit_foldl_range (f : Nat → Bool) (m k : Nat) (hk : k < m) :
    ((List.range m).foldl (fun n i => n * 2 + (f i).toNat) 0).testBit k = f (m - 1 - k) := by
  induction m generalizing k with
  | zero => exact absurd hk (Nat.not_lt_zero k)
  | succ m ih =>
    rw [List.range_succ, List.foldl_append, List.foldl_cons, List.foldl_nil]
    cases k with
    | zero => rw [testBit_double_add_zero]; rfl
    | succ k => rw [testBit_double_add_succ, ih k (by omega)]; congr 1; omega

theorem bitReverse_getLsbD (w : Word) (k : Nat) (hk : k < 32) : (bitReverse w).getLsbD k = w.getLsbD (31 - k) := by
  rw [bitReverse, word, BitVec.getLsbD_ofNat, decide_eq_true hk, Bool.true_and, testBit_foldl_range _ 32 k hk]

theorem byte_eq_bits (w : Word) (k : Nat) : w.toNat / 256 ^ k % 256 = bits w (8 * k) 8 := by
  simp only [bits, Nat.pow_mul, Nat.reducePow]

/-- The byte fields of a word that is packed from four bytes. -/
theorem bits_word_of_bytes {a b c e : Nat} (ha : a < 256) (hb : b < 256) (hc : c < 256) (he : e < 256) :
    bits (word (a * 2 ^ 24 + b * 2 ^ 16 + c * 2 ^ 8 + e)) 0 8 = e ∧
      bits (word (a * 2 ^ 24 + b * 2 ^ 16 + c * 2 ^ 8 + e)) 8 8 = c ∧
      bits (word (a * 2 ^ 24 + b * 2 ^ 16 + c * 2 ^ 8 + e)) 16 8 = b ∧
      bits (word (a * 2 ^ 24 + b * 2 ^ 16 + c * 2 ^ 8 + e)) 24 8 = a := by
  simp only [bits, word, BitVec.toNat_ofNat]
  omega

theorem byteReverse_byte (w : Word) (k : Nat) (hk : k < 4) :
    (byteReverse w).toNat / 256 ^ k % 256 = w.toNat / 256 ^ (3 - k) % 256 := by
  have hlt (lo : Nat) : bits w lo 8 < 256 := Nat.mod_lt _ (by decide)
  obtain ⟨h0, h1, h2, h3⟩ := bits_word_of_bytes (hlt 0) (hlt 8) (hlt 16) (hlt 24)
  rw [byte_eq_bits, byte_eq_bits, byteReverse]
  match k, hk with
  | 0, _ => exact h0
  | 1, _ => exact h1
  | 2, _ => exact h2
  | 3, _ => exact h3

theorem leadingZeros_zero : leadingZeros 0#32 = 32 := rfl

theorem leadingZeros_le (w : Word) : leadingZeros w ≤ 32 := by
  rw [leadingZeros]
  split <;> omega

theorem word_leadingZeros_toNat (w : Word) : (word (leadingZeros w)).toNat = leadingZeros w := by
  have hle := leadingZeros_le w
  rw [word, BitVec.toNat_ofNat]
  exact Nat.mod_eq_of_lt (by omega)

/-- The highest one bit of a word other than 0 is bit 31 less the count of leading zeros. -/
theorem log2_add_leadingZeros {w : Word} (h : w ≠ 0#32) : w.toNat.log2 + leadingZeros w = 31 := by
  have hlog : w.toNat.log2 < 32 := (Nat.log2_lt (mt word_eq_zero_iff.2 h)).2 w.isLt
  rw [leadingZeros, if_neg h]
  omega

theorem lt_two_pow_leadingZeros (w : Word) : w.toNat < 2 ^ (32 - leadingZeros w) := by
  by_cases h : w = 0#32
  · rw [h, leadingZeros_zero]; decide
  · have hsum := log2_add_leadingZeros h
    rw [show 32 - leadingZeros w = w.toNat.log2 + 1 by omega]
    exact Nat.lt_log2_self

theorem two_pow_leadingZeros_le {w : Word} (h : leadingZeros w < 32) : 2 ^ (31 - leadingZeros w) ≤ w.toNat := by
  have hne : w ≠ 0#32 := by rintro rfl; exact absurd h (by decide)
  have hsum := log2_add_leadingZeros hne
  rw [show 31 - leadingZeros w = w.toNat.log2 by omega]
  exact Nat.log2_self_le (mt word_eq_zero_iff.2 hne)

theorem word_leadingZeros_bounds (w : Word) :
    (word (leadingZeros w)).toNat ≤ 32 ∧ w.toNat < 2 ^ (32 - (word (leadingZeros w)).toNat) ∧
      ((word (leadingZeros w)).toNat < 32 → 2 ^ (31 - (word (leadingZeros w)).toNat) ≤ w.toNat) := by
  rw [word_leadingZeros_toNat]
  exact ⟨leadingZeros_le w, lt_two_pow_leadingZeros w, two_pow_leadingZeros_le⟩

/-- Settles O20: the bits of BITREV's fold, the bytes of BYTEREV's sum, and CLZ by the highest one bit. -/
theorem bitReversals : Obligations.BitReversals := by
  intro s d x
  exact ⟨writeReg_value (bitReverse_getLsbD _), writeReg_value (byteReverse_byte _),
    writeReg_value (word_leadingZeros_bounds (s.x x))⟩

end Sys2Proof.Machine
end

section
/-! The branches, calls and stack frames (R310 to R330): every form comes down to one replacement of the executing
thread, by a jump, by register writes or by both; ENTSP stores besides. -/
namespace Sys2Proof.Machine

/-! ### Targets and conditions (R310 to R317) -/

/-- Doubling mod 2^32 makes the signed and the unsigned reading of BRU's register agree (R317). -/
theorem ofInt_add_two_mul_toInt (pc x : Word) : BitVec.ofInt 32 (pc.toNat + 2 * x.toInt) = halfAt pc x := by
  rw [halfAt, BitVec.ofInt_add, BitVec.ofInt_mul, BitVec.ofInt_natCast, BitVec.ofNat_toNat, BitVec.setWidth_eq,
    BitVec.ofInt_toInt, BitVec.mul_comm]
  rfl

theorem beq_zero_iff {w : Word} : (w == 0#32) = true ↔ w.toNat = 0 := beq_iff_toNat_eq

theorem bne_zero_iff {w : Word} : (w != 0#32) = true ↔ w.toNat ≠ 0 := bne_iff_ne.trans (not_congr word_eq_zero_iff)

/-! ### Jumps and register writes in a row -/

theorem jump_spec (s : State) (target : Word) :
    ∃ t, (.next (s.jump target) : Result) = .next t ∧ s.becomes t { s.cur with pc := target } :=
  ⟨_, rfl, s.becomes_jump target⟩

theorem State.updThr_updThr (s : State) (n : Nat) (f g : Thread → Thread) :
    (s.updThr n f).updThr n g = s.updThr n (g ∘ f) := by
  rw [State.updThr, State.updThr, List.modify_modify_eq]
  rfl

/-- Two register writes in a row are one replacement of the executing thread, whether or not the XCore has it. -/
theorem State.setX_setX (s : State) (d e : Reg) (v w : Word) :
    (s.setX d v).setX e w = s.withThr s.tid ((s.cur.put d v).put e w) :=
  (s.updThr_updThr s.tid _ _).trans (s.updThr_eq s.tid _)

section Completion

variable {s : State}

/-- What a conditional branch does, from the proposition that its test decides. -/
theorem branchIf_of_iff {b : Bool} {p : Prop} [Decidable p] {target : Word} (h : b = true ↔ p) :
    ∃ t, branchIf b target s = .next t ∧ s.becomes t { s.cur with pc := if p then target else s.cur.pc } := by
  simp only [← h]
  exact branchIf_spec b target s

/-! ### Loads and stores that go on (R97) -/

theorem loadThen_completes {a : Word} {k : Word → State → Result} (haligned : a.toNat % 4 = 0)
    (hvalid : memValid s.plat a.toNat = true) : loadThen a k s = k (s.memRead a 4) s :=
  loadThen_legal a k s ((readable_iff _ a 4).2 ⟨haligned, hvalid⟩)

theorem loadThen_call {a : Word} (haligned : a.toNat % 4 = 0) (hvalid : memValid s.plat a.toNat = true) :
    ∃ t, loadThen a call s = .next t ∧ s.becomes t { s.cur.put lr s.cur.pc with pc := s.memRead a 4 } := by
  rw [loadThen_completes haligned hvalid]
  exact call_spec _ s

/-- A store followed by a change of the executing thread. -/
theorem State.stores.withThr {t : State} {th th' : Thread} {a : Word} {n : Nat} {v : Word}
    (h : s.stores t th a n v) : s.stores (t.withThr s.tid th') th' a n v := by
  obtain ⟨hrest, hbytes⟩ := h
  refine ⟨?_, hbytes⟩
  rw [State.withThr, hrest, List.set_set]

/-- ENTSP stores lr where sp pointed before it lowers sp (R324). -/
theorem execEntsp_completes {u : BitVec 16} (hu : u ≠ 0#16) (hwf : Memory.wf s.mem = true)
    (haligned : (s.x sp).toNat % 4 = 0) (hvalid : memValid s.plat (s.x sp).toNat = true)
    (hrom : inRom s.plat (s.x sp).toNat = false) :
    ∃ t, execEntsp u s = .next t ∧
      s.stores t (s.cur.put sp (wordBack (s.x sp) (immWord u))) (s.x sp) 4 (s.x lr) := by
  have hwritable := (writable_iff s.plat (s.x sp) 4).2 ⟨haligned, hvalid, hrom⟩
  rw [execEntsp, if_neg hu, if_pos hwritable, State.setX_eq]
  exact ⟨_, rfl, (s.stores_memWrite hwf (s.x sp) 4 (s.x lr)).withThr⟩

/-- RETSP raises sp, loads lr from there and goes to it (R325). -/
theorem execRetsp_completes {u : BitVec 16} (hu : u ≠ 0#16)
    (haligned : (wordAt (s.x sp) (immWord u)).toNat % 4 = 0)
    (hvalid : memValid s.plat (wordAt (s.x sp) (immWord u)).toNat = true) :
    ∃ t, execRetsp u s = .next t ∧ s.becomes t
      { (s.cur.put sp (wordAt (s.x sp) (immWord u))).put lr (s.memRead (wordAt (s.x sp) (immWord u)) 4) with
        pc := s.memRead (wordAt (s.x sp) (immWord u)) 4 } := by
  rw [execRetsp, if_neg hu, loadThen_completes haligned hvalid, State.setX_setX]
  exact ⟨_, rfl, s.becomes_jump_withThr _ _⟩

end Completion

/-- Settles O21: each form is a conditional branch, a jump, a call or a call through a table, at the address arithmetic
of R310. -/
theorem branchesAndCalls : Obligations.BranchesAndCalls := by
  intro s c u w
  simp only [List.forall_mem_cons, List.not_mem_nil, false_imp_iff, implies_true, and_true]
  refine ⟨⟨?brft, ?brff, ?brbt, ?brbf, ?brfu, ?brbu, ?bru, ?bau⟩, ⟨?blrf, ?blrb, ?bla⟩, ?blacp, ?blat⟩
  case brft | brbt => unfold exec; exact branchIf_of_iff bne_zero_iff
  case brff | brbf => unfold exec; exact branchIf_of_iff beq_zero_iff
  case brfu | brbu | bau => unfold exec; exact jump_spec s _
  case bru => rw [ofInt_add_two_mul_toInt]; exact jump_spec s _
  case blrf | blrb | bla => unfold exec; exact call_spec _ s
  case blacp | blat => unfold exec; exact loadThen_call

/-- Settles O22: the pointer forms write one register; ENTSP and RETSP store or load only where u16 is not 0. -/
theorem stackFrames : Obligations.StackFrames := by
  intro s c u
  simp only [List.forall_mem_cons, List.not_mem_nil, false_imp_iff, implies_true, and_true]
  refine ⟨⟨?extsp, ?extdp, ?setsp, ?setdp, ?setcp⟩, ?entspZero, ?retspZero, execEntsp_completes, execRetsp_completes⟩
  case extsp | extdp | setsp | setdp | setcp => unfold exec; exact writeReg_spec s _ _
  case entspZero => unfold exec; exact if_pos rfl
  case retspZero => exact jump_spec s (s.x lr)

end Sys2Proof.Machine
end

section
/-! What an identifier names (R350 to R354), and the traps of the common checks: the fields of an identifier are its
bytes, so that an identifier is the number that its fields spell. -/
namespace Sys2Proof.Machine

/-! ### The fields of an identifier (R350, R351) -/

theorem resType_eq (r : Word) : resType r = r.toNat % 256 := by simp [resType, bits]
theorem resNum_eq (r : Word) : resNum r = r.toNat / 256 % 256 := by simp [resNum, bits]
theorem resSpecific_eq (r : Word) : resSpecific r = r.toNat / 65536 % 65536 := by simp [resSpecific, bits]

/-- The type, the specific data and the number of an identifier are the digits of its value. -/
theorem id_fields_iff {r : Word} {type specific n : Nat} (htype : type < 256) (hspecific : specific < 65536) :
    (resType r = type ∧ resSpecific r = specific ∧ resNum r = n) ↔
      r.toNat = specific * 65536 + n * 256 + type ∧ n < 256 := by
  have := r.isLt
  rw [resType_eq, resSpecific_eq, resNum_eq]
  omega

theorem plainId_fields_iff {r : Word} {type n : Nat} (htype : type < 256) :
    (resType r = type ∧ resSpecific r = 0 ∧ resNum r = n) ↔ r.toNat = n * 256 + type ∧ n < 256 := by
  simpa using id_fields_iff (r := r) (n := n) htype (show 0 < 65536 by omega)

theorem chanSpecific_lt (pl : Platform) : chanSpecific pl < 65536 := by
  have := pl.nodeId.isLt
  have := pl.coreId.isLt
  unfold chanSpecific
  omega

/-! ### The tables of resources (R352) -/

section Lookup

variable {s : State} {r : Word} {n : Nat}

/-- The first port with the identifier (R46): what the search in the list of ports finds. -/
theorem State.findIdx?_ports_iff : s.ports.findIdx? (fun p => p.id == r) = some n ↔
    n < s.ports.length ∧ (s.port n).id = r ∧ ∀ m < n, (s.port m).id ≠ r := by
  have hport : ∀ m (h : m < s.ports.length), s.port m = s.ports[m] := fun m h => by simp [State.port, h]
  rw [List.findIdx?_eq_some_iff_getElem]
  constructor
  · rintro ⟨hn, hid, hfirst⟩
    refine ⟨hn, by simpa [hport n hn] using hid, fun m hm => ?_⟩
    rw [hport m (hm.trans hn)]
    simpa using hfirst m hm
  · rintro ⟨hn, hid, hfirst⟩
    refine ⟨hn, by simpa [hport n hn] using hid, fun m hm => ?_⟩
    have hne := hfirst m hm
    rw [hport m (hm.trans hn)] at hne
    simpa using hne

end Lookup

/-- The identifier has the fields of a resource of XCore s (R351, R352). -/
def State.Names (s : State) (r : Word) : Res → Prop
  | .port n => resType r = 0 ∧ r ≠ 0#32 ∧ s.ports.findIdx? (fun p => p.id == r) = some n
  | .timer n => (resType r = 1 ∧ resSpecific r = 0 ∧ resNum r = n) ∧ n < s.timers.length
  | .chan n => (resType r = 2 ∧ resSpecific r = chanSpecific s.plat ∧ resNum r = n) ∧ n < s.chans.length
  | .sync n => (resType r = 3 ∧ resSpecific r = 0 ∧ resNum r = n) ∧ n < s.syncs.length
  | .thread n => (resType r = 4 ∧ resSpecific r = 0 ∧ resNum r = n) ∧ n < s.threads.length
  | .lock n => (resType r = 5 ∧ resSpecific r = 0 ∧ resNum r = n) ∧ n < s.locks.length
  | .clk n => (resType r = 6 ∧ resSpecific r = 0 ∧ resNum r = n) ∧ n < s.clks.length

theorem State.lookup_eq_some_iff {s : State} {r : Word} {x : Res} : s.lookup r = some x ↔ s.Names r x := by
  unfold State.lookup
  dsimp only
  split
  case h_8 => cases x <;> simp_all [State.Names]
  case h_1 htype => cases x <;> simp [State.Names, htype]
  case h_2 htype | h_3 htype | h_4 htype | h_5 htype | h_6 htype | h_7 htype =>
    cases x <;> simp [State.Names, htype]
    omega

/-- Settles O10: an identifier is live where a table knows it and the resource is in use, and its fields are the digits
of its value. -/
theorem identifiersName : Obligations.IdentifiersName := by
  intro s r
  simp only [State.live_iff, State.lookup_eq_some_iff, State.Names, State.findIdx?_ports_iff,
    id_fields_iff (show 2 < 256 by omega) (chanSpecific_lt s.plat), plainId_fields_iff (show 1 < 256 by omega),
    plainId_fields_iff (show 3 < 256 by omega), plainId_fields_iff (show 4 < 256 by omega),
    plainId_fields_iff (show 5 < 256 by omega), plainId_fields_iff (show 6 < 256 by omega), and_assoc]
  exact ⟨fun _ => Iff.rfl, fun _ => Iff.rfl, fun _ => Iff.rfl, fun _ => Iff.rfl, fun _ => Iff.rfl, fun _ => Iff.rfl,
    fun _ => by rw [resType_eq, ne_eq, word_eq_zero_iff]; rfl⟩

/-! ### Identifiers that an instruction does not take (R354)

The instructions are listed by the types of resource that they take. -/

section Lists

variable (d r src : Reg) (us : Us)

/-- The instructions on a channel end. -/
def chanForms : List Instr :=
  [.setn r src, .getn d r, .outt r src, .outct r src, .outcti r us, .int d r, .inct d r, .chkct r src, .chkcti r us,
    .testct d r, .testwct d r, .testlcl d r]

/-- The instructions on a port or a clock block. -/
def clockForms : List Instr := [.setrdy r src, .setclk r src]

/-- The instructions on a port. -/
def portForms : List Instr :=
  [.outshr r src, .inshr d r, .peek d r, .setpt r src, .clrpt r, .getts d r, .settw r src, .setpsc r src, .endin d r,
    .outpw src r us, .inpw d r us, .syncr r]

/-- The instructions on a resource that has events (R526). -/
def eventForms : List Instr := [.setv r, .setev r, .eet d r, .eef d r, .eeu r, .edu r]

/-- The instructions on the data register or the divider of a resource. -/
def dataForms : List Instr := [.setd r src, .getd d r]

/-- The instructions on a synchroniser. -/
def syncForms : List Instr := [.getst d r, .msync r, .mjoin r]

/-- The instructions that no lock, synchroniser or thread is for. -/
def commonForms : List Instr :=
  chanForms d r src us ++ (clockForms r src ++ portForms d r src us) ++ (eventForms d r ++ dataForms d r src)

end Lists

/-- The types without events (R526). -/
theorem ResRef.res_ne (q : ResRef) (m : Nat) :
    Res.lock m ≠ q.res ∧ Res.sync m ≠ q.res ∧ Res.thread m ≠ q.res ∧ Res.clk m ≠ q.res := by
  cases q <;> simp [ResRef.res]

/-- Each instruction of a list raises ET_ILLEGAL_RESOURCE with the identifier (R673). -/
def AllTrap (s : State) (id : Word) (l : List Instr) : Prop :=
  ∀ i ∈ l, ∃ t, exec i s = .next t ∧ s.trapped t 4#32 id

theorem allTrap_append {s : State} {id : Word} {l l' : List Instr} :
    AllTrap s id (l ++ l') ↔ AllTrap s id l ∧ AllTrap s id l' := List.forall_mem_append

section Traps

variable {s : State} {d r src : Reg} {us : Us}

theorem exists_trapped_of_eq {i : Instr} (h : exec i s = badResource (s.x r) s) :
    ∃ t, exec i s = .next t ∧ s.trapped t 4#32 (s.x r) := by
  rw [h]
  exact badResource_spec s (s.x r)

theorem withOutChan_not {r : Word} (h : ∀ n, s.live r ≠ some (.chan n)) (k : Nat → State → Result) :
    withOutChan r k s = badResource r s := withChan_not h _

theorem outControl_not {r : Word} (h : ∀ n, s.live r ≠ some (.chan n)) (tok : Token) :
    outControl r tok s = badResource r s := withChan_not h _

theorem withHead_not {r : Word} (h : ∀ n, s.live r ≠ some (.chan n)) (k : Nat → Token → State → Result) :
    withHead r k s = badResource r s := withChan_not h _

theorem checkToken_not {r : Word} (h : ∀ n, s.live r ≠ some (.chan n)) (v : Word) :
    checkToken r v s = badResource r s := withHead_not h _

theorem withCount_not {r : Word} (h : ∀ n, s.live r ≠ some (.port n)) (count : Nat) (k : Nat → State → Result) :
    withCount r count k s = badResource r s := withPort_not h _

theorem chanForms_trap (h : ∀ n, s.live (s.x r) ≠ some (.chan n)) :
    AllTrap s (s.x r) (chanForms d r src us) := by
  simp only [AllTrap, chanForms, List.forall_mem_cons, List.not_mem_nil, false_imp_iff, implies_true, and_true]
  refine ⟨?setn, ?getn, ?outt, ?outct, ?outcti, ?int, ?inct, ?chkct, ?chkcti, ?testct, ?testwct, ?testlcl⟩
  all_goals refine exists_trapped_of_eq ?_; unfold exec
  case setn | getn | testwct | testlcl => exact withChan_not h _
  case outt => exact withOutChan_not h _
  case outct | outcti => exact outControl_not h _
  case int | inct | testct => exact withHead_not h _
  case chkct | chkcti => exact checkToken_not h _

theorem portForms_trap (h : ∀ n, s.live (s.x r) ≠ some (.port n)) :
    AllTrap s (s.x r) (portForms d r src us) := by
  simp only [AllTrap, portForms, List.forall_mem_cons, List.not_mem_nil, false_imp_iff, implies_true, and_true]
  refine ⟨?outshr, ?inshr, ?peek, ?setpt, ?clrpt, ?getts, ?settw, ?setpsc, ?endin, ?outpw, ?inpw, ?syncr⟩
  all_goals refine exists_trapped_of_eq ?_; unfold exec
  case outshr | inshr | peek | setpt | clrpt | getts | settw | endin | syncr => exact withPort_not h _
  case setpsc | outpw | inpw => exact withCount_not h _ _

theorem setEnable_not {r : Word} (h : ∀ q : ResRef, s.live r ≠ some q.res) (b : Bool) :
    setEnable r b s = badResource r s := withEventRes_not h _

theorem eventForms_trap (h : ∀ q : ResRef, s.live (s.x r) ≠ some q.res) :
    AllTrap s (s.x r) (eventForms d r) := by
  simp only [AllTrap, eventForms, List.forall_mem_cons, List.not_mem_nil, false_imp_iff, implies_true, and_true]
  refine ⟨?setv, ?setev, ?eet, ?eef, ?eeu, ?edu⟩
  all_goals refine exists_trapped_of_eq ?_; unfold exec
  case setv | setev => exact withEventRes_not h _
  case eet | eef | eeu | edu => exact setEnable_not h _

theorem syncForms_trap (h : ∀ n, s.live (s.x r) ≠ some (.sync n)) :
    AllTrap s (s.x r) (syncForms d r) := by
  simp only [AllTrap, syncForms, List.forall_mem_cons, List.not_mem_nil, false_imp_iff, implies_true, and_true]
  refine ⟨?_, ?_, ?_⟩
  all_goals refine exists_trapped_of_eq ?_; unfold exec; exact withSync_not h _

theorem clockForms_trap (hport : ∀ n, s.live (s.x r) ≠ some (.port n))
    (hclk : ∀ n, s.live (s.x r) ≠ some (.clk n)) :
    AllTrap s (s.x r) (clockForms r src) := by
  have hsetrdy : execSetrdy r src s = badResource (s.x r) s := by unfold execSetrdy; split <;> simp_all
  have hsetclk : execSetclk r src s = badResource (s.x r) s := by unfold execSetclk; split <;> simp_all
  simp only [AllTrap, clockForms, List.forall_mem_cons, List.not_mem_nil, false_imp_iff, implies_true, and_true]
  exact ⟨exists_trapped_of_eq hsetrdy, exists_trapped_of_eq hsetclk⟩

theorem dataForms_trap (hevent : ∀ q : ResRef, s.live (s.x r) ≠ some q.res)
    (hclk : ∀ n, s.live (s.x r) ≠ some (.clk n)) :
    AllTrap s (s.x r) (dataForms d r src) := by
  have hport := fun n => hevent (.port n)
  have htimer := fun n => hevent (.timer n)
  have hchan := fun n => hevent (.chan n)
  have hsetd : execSetd r src s = badResource (s.x r) s := by unfold execSetd; split <;> simp_all [ResRef.res]
  have hgetd : execGetd d r s = badResource (s.x r) s := by unfold execGetd; split <;> simp_all [ResRef.res]
  simp only [AllTrap, dataForms, List.forall_mem_cons, List.not_mem_nil, false_imp_iff, implies_true, and_true]
  exact ⟨exists_trapped_of_eq hsetd, exists_trapped_of_eq hgetd⟩

/-- IN takes channel ends, locks, timers and ports. -/
theorem in_trap (hevent : ∀ q : ResRef, s.live (s.x r) ≠ some q.res)
    (hlock : ∀ n, s.live (s.x r) ≠ some (.lock n)) :
    AllTrap s (s.x r) [.in_ d r] := by
  have hport := fun n => hevent (.port n)
  have htimer := fun n => hevent (.timer n)
  have hchan := fun n => hevent (.chan n)
  have hin : execIn d r s = badResource (s.x r) s := by unfold execIn; split <;> simp_all [ResRef.res]
  exact List.forall_mem_singleton.2 (exists_trapped_of_eq hin)

/-- OUT takes channel ends, locks and ports. -/
theorem out_trap (hchan : ∀ n, s.live (s.x r) ≠ some (.chan n)) (hlock : ∀ n, s.live (s.x r) ≠ some (.lock n))
    (hport : ∀ n, s.live (s.x r) ≠ some (.port n)) :
    AllTrap s (s.x r) [.out r src] := by
  have hout : execOut r src s = badResource (s.x r) s := by unfold execOut; split <;> simp_all
  exact List.forall_mem_singleton.2 (exists_trapped_of_eq hout)

end Traps

/-- Settles O47: the lists of the statement are made of those above, and the resource is of no type that the
instructions of each take. -/
theorem resourceTraps : Obligations.ResourceTraps := by
  intro s d r src us n
  show (s.live (s.x r) = none → AllTrap s (s.x r)
      (commonForms d r src us ++ ([.in_ d r] ++ [.out r src] ++ syncForms d r))) ∧
    ∀ p ∈ [(.lock n, commonForms d r src us ++ syncForms d r),
      (.sync n, commonForms d r src us ++ ([.in_ d r] ++ [.out r src])),
      (.thread n, commonForms d r src us ++ ([.in_ d r] ++ [.out r src] ++ syncForms d r)),
      (.timer n, chanForms d r src us ++ (clockForms r src ++ portForms d r src us) ++ ([.out r src] ++ syncForms d r)),
      (.clk n, chanForms d r src us ++ portForms d r src us ++ eventForms d r ++
        ([.in_ d r] ++ [.out r src] ++ syncForms d r)),
      (.port n, chanForms d r src us ++ syncForms d r),
      (.chan n, clockForms r src ++ portForms d r src us ++ syncForms d r)],
      s.live (s.x r) = some p.1 → AllTrap s (s.x r) p.2
  simp only [commonForms, allTrap_append, List.forall_mem_cons, List.not_mem_nil, false_imp_iff, implies_true, and_true]
  refine ⟨fun h => ?_, fun h => ?_, fun h => ?_, fun h => ?_, fun h => ?_, fun h => ?_, fun h => ?_, fun h => ?_⟩
  all_goals simp [h, ResRef.res_ne, chanForms_trap, clockForms_trap, portForms_trap, eventForms_trap, dataForms_trap,
    in_trap, out_trap, syncForms_trap]

end Sys2Proof.Machine
end

section
/-! Allocating and freeing resources (R355, R356, R376, R377): GETR and GETST take the lowest free resource of a type
and then write its identifier to a register, FREER looks at the type of what it frees. -/
namespace Sys2Proof.Machine

/-! ### Allocation, then a register (R355) -/

section Allocation

variable {s : State} {d : Reg} {k : Nat}

/-- The lowest free resource is allocated and its identifier written. -/
theorem allocate_lowest {n : Nat} {used : Nat → Bool} {alloc : State → Nat → State} {ident : Nat → Word} (hk : k < n)
    (hfree : used k = false) (hlower : ∀ j < k, used j = true) :
    allocate d (firstFree n used) alloc ident s = .next ((alloc s k).setX d (ident k)) := by
  rw [firstFree_some hk hfree hlower]
  rfl

/-- Where no resource of the type is free, the register is 0. -/
theorem allocate_full {n : Nat} {used : Nat → Bool} {alloc : State → Nat → State} {ident : Nat → Word}
    (hfull : ∀ k < n, used k = true) :
    ∃ t, allocate d (firstFree n used) alloc ident s = .next t ∧ s.becomes t (s.cur.put d 0#32) := by
  rw [firstFree_none hfull]
  exact allocate_none d alloc ident s

/-- The other type numbers have nothing to allocate. -/
theorem execGetr_none {us : Us} (hus : us.val = 0 ∨ 5 < us.val) :
    ∃ t, execGetr d us s = .next t ∧ s.becomes t (s.cur.put d 0#32) := by
  unfold execGetr
  split
  case h_6 => exact writeReg_spec s d 0#32
  all_goals omega

/-- A change of a timer and of the free-value counter, then a register write. -/
theorem State.updTimer_setX (s : State) (d : Reg) (k : Nat) (f : Timer → Timer) (free : Nat) (v : Word) :
    { s.updTimer k f with free := free }.setX d v =
      { (s.withThr s.tid (s.cur.put d v)).withTimerN k (f (s.timer k)) with free := free } := by
  rw [State.setX_eq, State.updTimer_eq]
  rfl

/-- A change of a channel end and of the free-value counter, then a register write. -/
theorem State.updChan_setX (s : State) (d : Reg) (k : Nat) (f : Chanend → Chanend) (free : Nat) (v : Word) :
    { s.updChan k f with free := free }.setX d v =
      { (s.withThr s.tid (s.cur.put d v)).withChanN k (f (s.chan k)) with free := free } := by
  rw [State.setX_eq, State.updChan_eq]
  rfl

/-- A thread that allocates another writes its own register afterwards. -/
theorem State.allocThread_setX (syn : Option Nat) (v : Word) (hcur : s.cur.inuse = true)
    (hk : (s.thr k).inuse = false) : (s.allocThread k syn).setX d v =
      { (s.withThr k { s.thr k with inuse := true, sr := SR.ofWord 0#32, syn := syn }).withThr s.tid (s.cur.put d v) with
        spaused := insertSet k s.spaused } := by
  have hne : k ≠ s.tid := by
    rintro rfl
    exact absurd (hcur.symm.trans hk) (by decide)
  have hthr : (s.allocThread k syn).cur = s.cur := by
    rw [State.allocThread, State.updThr_eq]
    exact (s.thr_withThr k s.tid _).trans (if_neg (by tauto))
  rw [State.setX_eq, hthr, State.allocThread, State.updThr_eq]
  rfl

end Allocation

/-- Settles O23: each type allocates its lowest free resource, and a type that has none, or is none, gives 0. -/
theorem getr : Obligations.Getr := by
  intro s d k
  refine ⟨fun hk hfree hlower => ?timer, fun hk hfree hlower => ?chan, fun hk hfree hlower => ?sync,
    fun hk hfree hlower hcur => ?thread, fun hk hfree hlower => ?lock, fun us hus => ?full⟩
  case timer =>
    exact ⟨_, _, allocate_lowest hk hfree hlower, s.updTimer_setX d k _ _ _, rfl, rfl, rfl, rfl, rfl⟩
  case chan =>
    exact ⟨_, _, allocate_lowest hk hfree hlower, s.updChan_setX d k _ _ _, rfl, rfl, rfl, rfl, rfl, rfl, rfl, rfl, rfl,
      rfl, rfl⟩
  case sync =>
    refine (allocate_lowest hk hfree hlower).trans ?_
    rw [State.setX_eq, State.allocSync, State.updSync_eq]
    rfl
  case thread =>
    refine ⟨_, allocate_lowest (alloc := fun s k => s.allocThread k none) hk hfree hlower, ?_, ?_⟩
    · rw [State.allocThread_setX none _ hcur hfree]; rfl
    · intro j
      exact mem_insertSet k s.spaused j
  case lock =>
    refine (allocate_lowest hk hfree hlower).trans ?_
    rw [State.setX_eq, State.allocLock, State.updLock_eq]
    rfl
  case full =>
    obtain ⟨rfl, hfull⟩ | ⟨rfl, hfull⟩ | ⟨rfl, hfull⟩ | ⟨rfl, hfull⟩ | ⟨rfl, hfull⟩ | hnone := hus
    case inr.inr.inr.inr.inr => exact execGetr_none hnone
    case inr.inr.inr.inl => exact allocate_full (alloc := fun s k => s.allocThread k none) hfull
    all_goals exact allocate_full hfull

/-! ### Freeing (R356) -/

section Freeing

variable {s : State} {r : Reg} {n : Nat}

theorem Chanend.busy_iff (c : Chanend) : c.busy = true ↔
    c.route = true ∨ c.inmsg = true ∨ c.inbuf ≠ [] ∨ c.waiterIn ≠ none ∨ c.waiterOut ≠ none := by
  simp [Chanend.busy, Option.isSome_iff_ne_none, or_assoc]

theorem exec_freer (r : Reg) (s : State) : exec (.freer r) s = execFreer r s := rfl

theorem execFreer_thread (hlive : s.live (s.x r) = some (.thread n)) : execFreer r s =
    if n ∈ s.spaused then .next (s.withThr n { s.thr n with inuse := false }) else badResource (s.x r) s := by
  simp [execFreer, hlive, State.updThr_eq]

theorem execFreer_chan (hlive : s.live (s.x r) = some (.chan n)) : execFreer r s =
    if (s.chan n).busy then badResource (s.x r) s
    else if (s.chan n).flight = [] then
      .next (s.withChanN n { s.chan n with inuse := false, es := { (s.chan n).es with enb := false } })
    else pauseOnChanOut n s := by
  simp [execFreer, hlive, State.updChan_eq]

end Freeing

/-- Settles O24: FREER by the type of what it is to free. -/
theorem freer : Obligations.Freer := by
  intro s r n
  refine ⟨fun hlive => ?timer, fun hlive => ?sync, fun hlive => ?lock, fun hlive hpaused => ?paused,
    fun hlive hrunning => ?running, fun hlive hroute hinmsg hinbuf hin hout => ?quiet, fun hlive hbusy => ?busy,
    fun hnot => ?other⟩
  all_goals simp only [exec_freer]
  case timer => simp [execFreer, hlive, State.updTimer_eq]
  case sync => simp [execFreer, hlive, State.updSync_eq]
  case lock => simp [execFreer, hlive, State.updLock_eq]
  case paused => exact (execFreer_thread hlive).trans (if_pos hpaused)
  case running =>
    rw [execFreer_thread hlive, if_neg hrunning]
    exact badResource_spec s _
  case quiet =>
    have hquiet : ¬(s.chan n).busy = true := by simp [Chanend.busy_iff, *]
    rw [execFreer_chan hlive, if_neg hquiet, pauseOnChanOut_eq]
    split <;> rfl
  case busy =>
    rw [execFreer_chan hlive, if_pos ((s.chan n).busy_iff.2 hbusy)]
    exact badResource_spec s _
  case other =>
    have hbad : execFreer r s = badResource (s.x r) s := by
      obtain hlive | hlive | hlive := hnot <;> simp [execFreer, hlive]
    rw [hbad]
    exact badResource_spec s _

/-! ### GETST and TSETMR (R376, R377) -/

section Slaves

variable {s : State} {d src r : Reg} {k j : Nat}

theorem exec_getst (d r : Reg) (s : State) : exec (.getst d r) s = execGetst d r s := rfl
theorem exec_tsetmr (d src : Reg) (s : State) : exec (.tsetmr d src) s = execTsetmr d src s := rfl

theorem State.withSyncN_setX (y : Sync) (v : Word) : (s.withSyncN k y).setX d v = (s.setX d v).withSyncN k y := rfl

/-- The executing thread becomes the master of the synchroniser, and the thread it allocates one of its slaves. -/
theorem execGetst_lowest (hlive : s.live (s.x r) = some (.sync k)) (hcur : s.cur.inuse = true)
    (hj : j < s.threads.length) (hfree : (s.thr j).inuse = false) (hlower : ∀ q < j, (s.thr q).inuse = true) :
    execGetst d r s = .next
      { ((s.withThr j { s.thr j with inuse := true, sr := SR.ofWord 0#32, syn := some k }).withThr s.tid
          (s.cur.put d (word (j * 256 + 4)))).withSyncN k
            { s.sync k with slaves := insertSet j (s.sync k).slaves, mstr := s.tid } with
        spaused := insertSet j s.spaused } := by
  rw [execGetst, withSync_live hlive, allocate_lowest hj hfree hlower, State.updSync_eq, State.withSyncN_setX,
    State.allocThread_setX (some k) _ hcur hfree]
  rfl

theorem execTsetmr_slave (hsyn : s.cur.syn = some k) (hinuse : (s.sync k).inuse = true)
    (hslave : s.tid ∈ (s.sync k).slaves) : execTsetmr d src s =
      if (s.thr (s.sync k).mstr).inuse then
        .next (s.withThr (s.sync k).mstr ((s.thr (s.sync k).mstr).put d (s.x src)))
      else badResource (plainId 4 (s.sync k).mstr) s := by
  simp only [execTsetmr, State.synOf_of hsyn hinuse hslave, State.updThr_eq]

end Slaves

/-- Settles O29: GETST allocates as GETR does and enters the thread as a slave, TSETMR writes a register of the
master. -/
theorem getstTsetmr : Obligations.GetstTsetmr := by
  intro s d r src k j
  simp only [exec_getst, exec_tsetmr]
  refine ⟨fun hlive hcur hj hfree hlower => ?slave, fun hlive hfull => ?full, fun hsyn hinuse hslave hmaster => ?master,
    fun hsyn hinuse hslave hmaster => ?noMaster⟩
  case slave =>
    exact ⟨_, _, execGetst_lowest hlive hcur hj hfree hlower, rfl, mem_insertSet j s.spaused,
      mem_insertSet j (s.sync k).slaves⟩
  case full =>
    rw [execGetst, withSync_live hlive]
    exact allocate_full hfull
  case master => rw [execTsetmr_slave hsyn hinuse hslave, if_pos hmaster]
  case noMaster =>
    rw [execTsetmr_slave hsyn hinuse hslave, if_neg (by simp [hmaster])]
    exact badResource_spec s _

end Sys2Proof.Machine
end

section
/-! Threads and synchronisers (R370 to R385): setting up, starting and freeing a thread, the two sides of a barrier, and
what a model refuses of them. -/
namespace Sys2Proof.Machine

/-! ### Threads that are set up (R370 to R375) -/

section Setup

variable {s : State} {d src t : Reg} {r : Word} {n : Nat}

theorem withPausedThread_not (h : ∀ m, s.live r ≠ some (.thread m)) (k : Nat → State → Result) :
    withPausedThread r k s = badResource r s := withThread_not h _

theorem execTinitpc_paused (hlive : s.live (s.x t) = some (.thread n)) (hpaused : n ∈ s.spaused) :
    execTinitpc src t s = .next (s.withThr n { s.thr n with pc := s.x src }) := by
  rw [execTinitpc, withPausedThread_paused hlive hpaused, State.updThr_eq]

/-! An identifier that names no paused thread raises, whatever the instruction would do (R370). -/

variable (h : (∀ m, s.live (s.x t) ≠ some (.thread m)) ∨ (s.live (s.x t) = some (.thread n) ∧ n ∉ s.spaused))

include h

theorem withPausedThread_traps (k : Nat → State → Result) :
    ∃ u, withPausedThread (s.x t) k s = .next u ∧ s.trapped u 4#32 (s.x t) := by
  have hbad : withPausedThread (s.x t) k s = badResource (s.x t) s := by
    obtain hnot | ⟨hlive, hrunning⟩ := h
    · exact withPausedThread_not hnot k
    · exact withPausedThread_running hlive hrunning k
  rw [hbad]
  exact badResource_spec s (s.x t)

theorem initReg_traps (i : Reg) (v : Word) : ∃ u, initReg i v (s.x t) s = .next u ∧ s.trapped u 4#32 (s.x t) :=
  withPausedThread_traps h _

theorem execTinitpc_traps : ∃ u, execTinitpc src t s = .next u ∧ s.trapped u 4#32 (s.x t) := by
  unfold execTinitpc
  exact withPausedThread_traps h _

theorem execTstart_traps : ∃ u, execTstart t s = .next u ∧ s.trapped u 4#32 (s.x t) := by
  unfold execTstart
  exact withPausedThread_traps h _

end Setup

/-- Settles O28: the instructions share the check for a paused thread, but for TSETR, which takes any thread in use. -/
theorem threadSetup : Obligations.ThreadSetup := by
  intro s d src t n
  refine ⟨fun hlive => ?tsetr, fun hlive hpaused => ⟨⟨_, execTinitpc_paused hlive hpaused, rfl⟩,
    initReg_eq hlive hpaused sp _, initReg_eq hlive hpaused dp _, initReg_eq hlive hpaused cp _,
    initReg_eq hlive hpaused lr _⟩, fun hnot => ?traps, fun hnot => ?tsetrTraps⟩
  case tsetr =>
    unfold exec
    exact (withThread_live hlive _).trans (by rw [State.updThr_eq])
  case traps =>
    simp only [List.forall_mem_cons, List.not_mem_nil, false_imp_iff, implies_true, and_true]
    exact ⟨execTinitpc_traps hnot, initReg_traps hnot sp _, initReg_traps hnot dp _, initReg_traps hnot cp _,
      initReg_traps hnot lr _, execTstart_traps hnot⟩
  case tsetrTraps =>
    have hbad : exec (.tsetr d src t) s = badResource (s.x t) s := by
      unfold exec
      exact withThread_not hnot _
    rw [hbad]
    exact badResource_spec s _

/-! ### Threads that start and end (R379, R384, R385) -/

section StartEnd

variable {s : State} {t : Reg} {n : Nat}

theorem exec_tstart (t : Reg) (s : State) : exec (.tstart t) s = execTstart t s := rfl

theorem minusSet_singleton (l : List Nat) (n : Nat) : minusSet l [n] = l.filter (· != n) := by
  exact List.filter_congr fun k _ => by by_cases h : k = n <;> simp [h]

theorem State.mem_startThreads_stale {ts : List Nat} {e : StaleParcel} (h : e ∈ (s.startThreads ts).stale) :
    e ∈ s.stale := List.mem_of_mem_filter h

/-- A thread that starts leaves spaused and every waiting record, and no longer waits (R63, R379). -/
theorem State.startThreads_resumeThr (s : State) (n : Nat) : (s.startThreads [n]).resumeThr n =
    { s.withThr n { s.thr n with sr := { (s.thr n).sr with waiting := false } } with
      spaused := s.spaused.filter (· != n)
      stale := (s.startThreads [n]).stale
      ports := s.ports.map fun p => { p with waiter := forget n p.waiter }
      timers := s.timers.map fun x => { x with waiter := forget n x.waiter }
      chans := s.chans.map fun c => { c with waiterIn := forget n c.waiterIn, waiterOut := forget n c.waiterOut } } := by
  rw [← minusSet_singleton, State.resumeThr, State.updThr_eq]
  rfl

theorem execTstart_paused (hlive : s.live (s.x t) = some (.thread n)) (hpaused : n ∈ s.spaused) : execTstart t s =
    if legalPc s.plat (s.thr n).pc then .next ((s.startThreads [n]).resumeThr n)
    else raised .illegalPc (s.thr n).pc s := withPausedThread_paused hlive hpaused _

end StartEnd

/-- Settles O30: TSTART by the pc of the thread it starts, the other two by their equations. -/
theorem threadStartEnd : Obligations.ThreadStartEnd := by
  intro s
  refine ⟨congrArg Host.Outcome.next (s.updThr_eq s.tid _), writeReg_spec s r11 _, fun t n hlive hpaused => ?_⟩
  rw [exec_tstart, execTstart_paused hlive hpaused]
  refine ⟨fun hlegal => ?starts, fun hillegal => ?traps⟩
  case starts =>
    rw [if_pos hlegal]
    exact ⟨_, rfl, s.startThreads_resumeThr n, fun e he => State.mem_startThreads_stale he⟩
  case traps =>
    rw [if_neg (by simp [hillegal])]
    exact raised_spec s .illegalPc _

/-! ### The slaves of a synchroniser (R378, R380, R383) -/

section Slaves

variable {s : State} {k : Nat}

theorem exec_ssync (s : State) : exec .ssync s = execSsync s := rfl
theorem exec_msync (r : Reg) (s : State) : exec (.msync r) s = execMsync r s := rfl
theorem exec_mjoin (r : Reg) (s : State) : exec (.mjoin r) s = execMjoin r s := rfl

/-- The executing thread with events disabled. -/
theorem State.clearEeble_cur (htid : s.tid < s.threads.length) :
    s.clearEeble.thr s.tid = { s.cur with sr := { s.cur.sr with eeble := false } } := by
  rw [State.clearEeble_eq]
  exact s.cur_withThr _ htid

theorem State.clearEeble_thr {q : Nat} (h : q ≠ s.tid) : s.clearEeble.thr q = s.thr q := by
  rw [State.clearEeble_eq, State.thr_withThr, if_neg (by tauto)]

theorem State.freeSlaves_sync (hk : k < s.syncs.length) :
    (s.freeSlaves k).sync k = { s.sync k with slaves := [], mjoin := false } := by
  rw [State.freeSlaves_eq]
  exact (s.sync_withSyncN k k _).trans (if_pos ⟨rfl, hk⟩)

/-- A synchroniser replaced after its slaves were freed: of what the freeing did, the threads stay. -/
theorem State.freeSlaves_withSyncN (y : Sync) :
    (s.freeSlaves k).withSyncN k y = { s.withSyncN k y with threads := (s.freeSlaves k).threads } := by
  rw [State.freeSlaves_eq]
  simp [State.withSyncN]

/-- The slaves freed by a join that the executing thread takes part in. -/
theorem State.clearEeble_freeSlaves_thr {q : Nat} (h : q ≠ s.tid) : (s.clearEeble.freeSlaves k).thr q =
    if q ∈ (s.sync k).slaves then { s.thr q with inuse := false } else s.thr q := by
  rw [State.freeSlaves_thr, State.clearEeble_thr h]
  rfl

theorem State.clearEeble_freeSlaves_cur (htid : s.tid < s.threads.length) : (s.clearEeble.freeSlaves k).thr s.tid =
    { s.cur with
      inuse := s.cur.inuse && decide (s.tid ∉ (s.sync k).slaves), sr := { s.cur.sr with eeble := false } } := by
  rw [State.freeSlaves_thr, State.clearEeble_cur htid]
  show (if s.tid ∈ (s.sync k).slaves then _ else _) = _
  split <;> simp [*]

theorem State.clearEeble_freeSlaves_length : (s.clearEeble.freeSlaves k).threads.length = s.threads.length := by
  rw [State.freeSlaves_length, State.clearEeble_eq]
  exact List.length_set

/-! ### The slave's side (R380) -/

/-- The slave is the last to arrive and the master waits. -/
def State.lastSlave (s : State) (k : Nat) : Prop :=
  (s.sync k).slaves.filter (fun q => !s.spaused.contains q) = [s.tid] ∧ (s.sync k).msyn = true

variable (hsyn : s.cur.syn = some k) (hinuse : (s.sync k).inuse = true) (hslave : s.tid ∈ (s.sync k).slaves)

include hsyn hinuse hslave

theorem execSsync_last (hlast : s.lastSlave k) : execSsync s =
    .next { (if (s.sync k).mjoin then s.clearEeble.freeSlaves k else s.clearEeble.release (s.sync k).slaves).updSync k
        fun y => { y with msyn := false } with
      mpaused := s.mpaused.filter fun q => q != (s.sync k).mstr } := by
  have hgo : (decide (s.running k = [s.tid]) && (s.sync k).msyn) = true := by
    rw [Bool.and_eq_true, decide_eq_true_iff]
    exact hlast
  simp only [execSsync, State.synOf_of hsyn hinuse hslave, if_pos hgo, minusSet_singleton]

theorem execSsync_releases (hlast : s.lastSlave k) (hjoin : (s.sync k).mjoin = false) : execSsync s = .next
    { (s.withThr s.tid { s.cur with sr := { s.cur.sr with eeble := false } }).withSyncN k
        { s.sync k with msyn := false } with
      spaused := s.spaused.filter fun q => !(s.sync k).slaves.contains q
      mpaused := s.mpaused.filter fun q => q != (s.sync k).mstr } := by
  rw [execSsync_last hsyn hinuse hslave hlast, if_neg (by simp [hjoin]), State.updSync_eq, State.clearEeble_eq]
  rfl

theorem execSsync_joins (hk : k < s.syncs.length) (hlast : s.lastSlave k) (hjoin : (s.sync k).mjoin = true) :
    execSsync s = .next
      { s.withSyncN k { s.sync k with msyn := false, mjoin := false, slaves := [] } with
        threads := (s.clearEeble.freeSlaves k).threads
        mpaused := s.mpaused.filter fun q => q != (s.sync k).mstr } := by
  rw [execSsync_last hsyn hinuse hslave hlast, if_pos hjoin, State.updSync_eq,
    State.freeSlaves_sync (s := s.clearEeble) hk, State.freeSlaves_withSyncN]
  rfl

theorem execSsync_waits (hlast : ¬s.lastSlave k) : execSsync s =
    if s.cur.sr.inint then .refused .syncInInterrupt
    else .next { s.clearEeble with spaused := insertSet s.tid s.spaused } := by
  have hnot : ¬(decide (s.running k = [s.tid]) && (s.sync k).msyn) = true := by
    rw [Bool.and_eq_true, decide_eq_true_iff]
    exact hlast
  simp only [execSsync, State.synOf_of hsyn hinuse hslave, if_neg hnot]

end Slaves

/-- Settles O31: the last slave to arrive releases the group or ends it, any other one stops. -/
theorem slaveBarrier : Obligations.SlaveBarrier := by
  intro s k hsyn hinuse hslave hk htid y last
  rw [exec_ssync]
  refine ⟨fun hlast hjoin => ?releases, fun hlast hjoin => ?joins, fun hlast hjoin => ?ends,
    fun hlast hinint => ?waits⟩
  case releases => exact ⟨_, execSsync_releases hsyn hinuse hslave hlast hjoin, rfl, fun _ he => he⟩
  case joins =>
    exact ⟨_, execSsync_joins hsyn hinuse hslave hk hlast hjoin, rfl, State.clearEeble_freeSlaves_length,
      fun q _ hne => State.clearEeble_freeSlaves_thr hne⟩
  case ends =>
    refine ⟨_, execSsync_joins hsyn hinuse hslave hk hlast hjoin, ?_⟩
    exact (State.clearEeble_freeSlaves_cur htid).trans (by simp [hslave])
  case waits =>
    refine ⟨_, (execSsync_waits hsyn hinuse hslave hlast).trans (if_neg (by simp [hinint])), ?_,
      mem_insertSet s.tid s.spaused⟩
    rw [State.clearEeble_eq]

/-! ### The master's side (R381, R383) -/

section Master

variable {s : State} {r : Reg} {k : Nat}

theorem execMsync_running (hlive : s.live (s.x r) = some (.sync k)) (h : ¬∀ q ∈ (s.sync k).slaves, q ∈ s.spaused) :
    execMsync r s = s.stopMaster k false := by
  rw [execMsync, withSync_live hlive, if_neg (by rwa [State.running_nil_iff])]

theorem execMjoin_running (hlive : s.live (s.x r) = some (.sync k)) (h : ¬∀ q ∈ (s.sync k).slaves, q ∈ s.spaused) :
    execMjoin r s = s.stopMaster k true := by
  rw [execMjoin, withSync_live hlive, if_neg (by rwa [State.running_nil_iff])]

theorem execMjoin_paused (hlive : s.live (s.x r) = some (.sync k)) (h : ∀ q ∈ (s.sync k).slaves, q ∈ s.spaused) :
    execMjoin r s = .next (s.clearEeble.freeSlaves k) := by
  rw [execMjoin, withSync_live hlive, if_pos (by rwa [State.running_nil_iff])]

theorem execMsync_starts (hlive : s.live (s.x r) = some (.sync k)) (h : ∀ q ∈ (s.sync k).slaves, q ∈ s.spaused)
    (hlegal : ∀ q ∈ (s.sync k).slaves, legalPc s.plat (s.thr q).pc = true) :
    execMsync r s = .next (s.clearEeble.startThreads (s.sync k).slaves) := by
  have hnone : (s.sync k).slaves.filter (fun x => !legalPc s.plat (s.thr x).pc) = [] := by
    simpa [List.filter_eq_nil_iff] using hlegal
  rw [execMsync, withSync_live hlive, if_pos (by rwa [State.running_nil_iff]), hnone]
  rfl

/-- Of the slaves with an illegal pc the lowest-numbered is reported (R381). -/
theorem execMsync_illegal (hlive : s.live (s.x r) = some (.sync k)) (h : ∀ q ∈ (s.sync k).slaves, q ∈ s.spaused)
    (hillegal : ∃ q ∈ (s.sync k).slaves, legalPc s.plat (s.thr q).pc = false) :
    ∃ q ∈ (s.sync k).slaves, legalPc s.plat (s.thr q).pc = false ∧
      (∀ j ∈ (s.sync k).slaves, legalPc s.plat (s.thr j).pc = false → q ≤ j) ∧
      execMsync r s = raised .illegalPc (s.thr q).pc s := by
  have hmem : ∀ q, q ∈ (s.sync k).slaves.filter (fun x => !legalPc s.plat (s.thr x).pc) ↔
      q ∈ (s.sync k).slaves ∧ legalPc s.plat (s.thr q).pc = false := by simp
  obtain ⟨q₀, hq₀⟩ := hillegal
  obtain ⟨q, hq⟩ := Option.isSome_iff_exists.1 (List.isSome_min?_of_mem ((hmem q₀).2 hq₀))
  obtain ⟨hin, hle⟩ := List.min?_eq_some_iff.1 hq
  obtain ⟨hslave, hbad⟩ := (hmem q).1 hin
  refine ⟨q, hslave, hbad, fun j hj hjbad => hle j ((hmem j).2 ⟨hj, hjbad⟩), ?_⟩
  rw [execMsync, withSync_live hlive, if_pos (by rwa [State.running_nil_iff]), hq]

theorem State.stopMaster_waits (hinint : s.cur.sr.inint = false) (join : Bool) : s.stopMaster k join = .next
    { (s.withThr s.tid { s.cur with sr := { s.cur.sr with eeble := false } }).withSyncN k
        { s.sync k with msyn := true, mjoin := (s.sync k).mjoin || join } with
      mpaused := insertSet s.tid s.mpaused } := by
  rw [State.stopMaster, if_neg (by simp [hinint]), State.updSync_eq, State.clearEeble_eq]
  rfl

theorem State.stopMaster_refused (hinint : s.cur.sr.inint = true) (join : Bool) :
    s.stopMaster k join = .refused .syncInInterrupt := if_pos hinint

end Master

/-- Settles O32: the master goes on where all its slaves are paused, and stops otherwise. -/
theorem masterBarrier : Obligations.MasterBarrier := by
  intro s r k hlive htid y allPaused
  rw [exec_msync, exec_mjoin]
  refine ⟨fun hall hlegal => ?starts, fun hall hillegal => ?illegal, fun hall => ?joins,
    fun hall hinint => ⟨?waits, ?waitsJoin⟩⟩
  case starts =>
    refine ⟨_, execMsync_starts hlive hall hlegal, ?_, fun e he => State.mem_startThreads_stale he⟩
    rw [State.clearEeble_eq]
    rfl
  case illegal =>
    obtain ⟨q, hslave, hbad, hlowest, heq⟩ := execMsync_illegal hlive hall hillegal
    rw [heq]
    exact ⟨_, q, rfl, hslave, hbad, hlowest, s.trapped_raise .illegalPc _⟩
  case joins =>
    exact ⟨_, execMjoin_paused hlive hall, State.freeSlaves_eq _ k, State.clearEeble_freeSlaves_length,
      State.clearEeble_freeSlaves_cur htid, fun q hne => State.clearEeble_freeSlaves_thr hne⟩
  case waits =>
    exact ⟨_, (execMsync_running hlive hall).trans (State.stopMaster_waits hinint false), by rw [Bool.or_false],
      mem_insertSet s.tid s.mpaused⟩
  case waitsJoin =>
    exact ⟨_, (execMjoin_running hlive hall).trans (State.stopMaster_waits hinint true), by rw [Bool.or_true],
      mem_insertSet s.tid s.mpaused⟩

/-! ### What a model refuses (R376, R380, R521, R592) -/

section Refusals

variable {s : State} {d src : Reg} {k : Nat}

/-- A thread has no synchroniser where the one that created it was freed or does not list it (log 24). -/
theorem State.synOf_stale (hsyn : s.cur.syn = some k) (h : (s.sync k).inuse = false ∨ s.tid ∉ (s.sync k).slaves) :
    s.synOf s.tid = none := by
  have hthr : (s.thr s.tid).syn = some k := hsyn
  rw [State.synOf, hthr, Option.filter_eq_none_iff]
  rintro _ ⟨⟩
  obtain h | h := h <;> simp [h]

theorem noSynchroniser_refused (h : s.synOf s.tid = none) :
    exec .ssync s = .refused .noSynchroniser ∧ exec (.tsetmr d src) s = .refused .noSynchroniser := by
  unfold exec
  simp only [execSsync, execTsetmr, h, and_self]

/-- A mask that names inint, sink or waiting is refused (R521). -/
theorem maskRefused_of_getLsbD {m : Word} {j : Nat} (hj : j = 3 ∨ j = 5 ∨ j = 6) (h : m.getLsbD j = true) :
    maskRefused m = true := by
  rw [maskRefused, bne_iff_ne]
  intro hzero
  have hbit : (m &&& srTestOnly).getLsbD j = true := by
    rw [BitVec.getLsbD_and, h, srTestOnly_getLsbD (by omega), decide_eq_true hj]
    rfl
  simp [hzero] at hbit

theorem maskRefused_immWord_of_getLsbD {u : BitVec 16}
    (h : u.getLsbD 3 = true ∨ u.getLsbD 5 = true ∨ u.getLsbD 6 = true) : maskRefused (immWord u) = true := by
  have himm : ∀ j < 32, (immWord u).getLsbD j = u.getLsbD j := fun j hj => by simp [immWord, hj]
  obtain h | h | h := h
  · exact maskRefused_of_getLsbD (j := 3) (by simp) ((himm 3 (by omega)).trans h)
  · exact maskRefused_of_getLsbD (j := 5) (by simp) ((himm 5 (by omega)).trans h)
  · exact maskRefused_of_getLsbD (j := 6) (by simp) ((himm 6 (by omega)).trans h)

theorem execDcall_refused (h : s.dbg.indbg = true ∨ (s.thr 0).inuse = false ∨ 0 ∈ s.spaused ∨ 0 ∈ s.mpaused) :
    execDcall s = .refused .debugEntryUndefined := by
  have hno : ¬(!s.dbg.indbg && s.debugCanEnter) = true := by
    obtain h | h | h | h := h <;> simp [State.debugCanEnter, h]
  rw [execDcall, if_neg hno]

end Refusals

/-- Settles O33: each refusal is the branch of a test, which the hypotheses decide. -/
theorem specRefusals : Obligations.SpecRefusals := by
  intro s d src r u k
  refine ⟨fun hsyn => noSynchroniser_refused (State.synOf_none hsyn), fun hsyn hstale => noSynchroniser_refused
    (State.synOf_stale hsyn hstale), fun hsyn hinuse hslave hinint hlast => ?ssync, fun hlive hinint hrunning => ?master,
    fun hmask => ?mask, execDcall_refused⟩
  case ssync => exact (execSsync_waits hsyn hinuse hslave hlast).trans (if_pos hinint)
  case master =>
    have hsome : ¬∀ q ∈ (s.sync k).slaves, q ∈ s.spaused := by simpa using hrunning
    exact ⟨(execMsync_running hlive hsome).trans (State.stopMaster_refused hinint false),
      (execMjoin_running hlive hsome).trans (State.stopMaster_refused hinint true)⟩
  case mask =>
    have hrefused := maskRefused_immWord_of_getLsbD hmask
    exact ⟨if_pos hrefused, if_pos hrefused⟩

end Sys2Proof.Machine
end

section
/-! SETC and SETCI (R357, R358, R452, R466): the value names a mode, the mode has an effect on the resource or none, and
where it has none, or the resource may not take it now, the identifier is reported. -/
namespace Sys2Proof.Machine

/-! ### Mode values (R451, R452) -/

/-- The value that stands for a mode (R452). -/
def Mode.code : Mode → Nat
  | .inuseOff => 0x0000
  | .inuseOn => 0x0008
  | .condNone => 0x0001
  | .condAfter => 0x0009
  | .condEq => 0x0011
  | .condNeq => 0x0019
  | .ieEvent => 0x0002
  | .ieInterrupt => 0x000A
  | .driveDrive => 0x0003
  | .drivePullDown => 0x000B
  | .drivePullUp => 0x0013
  | .runStop => 0x0007
  | .runStart => 0x000F
  | .runClrbuf => 0x0017
  | .msMaster => 0x1007
  | .msSlave => 0x100F
  | .bufNoBuffers => 0x2007
  | .bufBuffers => 0x200F
  | .rdyNoReady => 0x3007
  | .rdyStrobed => 0x300F
  | .rdyHandshake => 0x3017
  | .noSDelay => 0x4007
  | .sDelay => 0x400F
  | .dataPort => 0x5007
  | .clockPort => 0x500F
  | .readyPort => 0x5017
  | .noInvert => 0x6007
  | .invert => 0x600F

theorem modeOf_eq_some_iff {v : Word} {m : Mode} : modeOf v = some m ↔ v.toNat = m.code := by
  constructor
  · unfold modeOf
    split
    case h_29 => nofun
    all_goals
      rintro ⟨⟩
      assumption
  · intro h
    have hword : v = word m.code := by rw [← h, word, BitVec.ofNat_toNat, BitVec.setWidth_eq]
    rw [hword]
    cases m <;> rfl

theorem Mode.code_injective {m m' : Mode} (h : m.code = m'.code) : m = m' := by
  have hm : ∀ m : Mode, modeOf (word m.code) = some m := fun m => by cases m <;> rfl
  exact Option.some.inj ((hm m).symm.trans (h ▸ hm m'))

/-- The twenty-eight values of the mode table (R452). -/
theorem Mode.code_mem (m : Mode) : m.code ∈ [0x0000, 0x0008, 0x0001, 0x0009, 0x0011, 0x0019, 0x0002, 0x000A, 0x0003,
    0x000B, 0x0013, 0x0007, 0x000F, 0x0017, 0x1007, 0x100F, 0x2007, 0x200F, 0x3007, 0x300F, 0x3017, 0x4007, 0x400F,
    0x5007, 0x500F, 0x5017, 0x6007, 0x600F] := by
  cases m <;> decide

theorem immWord_toNat (u : BitVec 16) : (immWord u).toNat = u.toNat := by
  simp [immWord, BitVec.toNat_setWidth, Nat.mod_eq_of_lt (show u.toNat < 4294967296 by omega)]

/-! ### SETC by the type of the resource (R357) -/

section Control

variable {s : State} {r v : Word} {n : Nat} {m : Mode}

theorem exec_setc (r src : Reg) (s : State) : exec (.setc r src) s = setControl (s.x r) (s.x src) s := rfl
theorem exec_setci (r : Reg) (u : BitVec 16) (s : State) : exec (.setci r u) s = setControl (s.x r) (immWord u) s := rfl

theorem setControl_clk {c : ClockBlock} (hm : v.toNat = m.code) (hr : s.lookup r = some (.clk n))
    (hi : ((s.clk n).inuse || m.isInuse) = true) (hc : (s.clk n).setMode s.plat.refClkId m = some c) :
    setControl r v s = .next (s.withClkN n c) := by
  simp only [setControl, modeOf_eq_some_iff.2 hm, hr, hi, if_true, hc, State.updClk_eq]

theorem setControl_timer {t : Timer} (hm : v.toNat = m.code) (hlive : s.live r = some (.timer n))
    (ht : (s.timer n).setMode m = some t) : setControl r v s = .next (s.withTimerN n t) := by
  obtain ⟨hr, hi⟩ := State.live_iff.1 hlive
  have hinuse : (s.timer n).inuse = true := hi
  simp only [setControl, modeOf_eq_some_iff.2 hm, hr, hinuse, if_true, ht, State.updTimer_eq]

theorem setControl_chan {c : Chanend} (hm : v.toNat = m.code) (hlive : s.live r = some (.chan n))
    (hc : (s.chan n).setMode m = some c) : setControl r v s = .next (s.withChanN n c) := by
  obtain ⟨hr, hi⟩ := State.live_iff.1 hlive
  have hinuse : (s.chan n).inuse = true := hi
  simp only [setControl, modeOf_eq_some_iff.2 hm, hr, hinuse, if_true, hc, State.updChan_eq]

/-- A mode that uses no free values, on a port that may take it. -/
theorem setControl_port_plain {p : Port} (hm : v.toNat = m.code) (hr : s.lookup r = some (.port n))
    (hi : ((s.port n).inuse || m.skipsOnPort s.plat) = true) (hfree : m.freeUsed = 0)
    (hp : (s.port n).setMode s.plat s.free m = some p) : setControl r v s = .next (s.withPortN n p) := by
  rw [setControl_port (modeOf_eq_some_iff.2 hm) hr hi hp, hfree]
  rfl

/-- SETC and SETCI of such a mode on a port in use. -/
theorem setc_port {src : Reg} {u : BitVec 16} {r : Reg} {p : Port} (hlive : s.live (s.x r) = some (.port n)) (m : Mode)
    (hfree : m.freeUsed = 0) (hp : (s.port n).setMode s.plat s.free m = some p) :
    ((s.x src).toNat = m.code → exec (.setc r src) s = .next (s.withPortN n p)) ∧
    (u.toNat = m.code → exec (.setci r u) s = .next (s.withPortN n p)) := by
  obtain ⟨hr, hi⟩ := State.live_iff.1 hlive
  have hinuse : ((s.port n).inuse || m.skipsOnPort s.plat) = true := Bool.or_eq_true_iff.2 (.inl hi)
  exact ⟨fun h => setControl_port_plain h hr hinuse hfree hp,
    fun h => setControl_port_plain ((immWord_toNat u).trans h) hr hinuse hfree hp⟩

end Control

/-- Settles O25: each value is the code of a mode, whose effect on the port is the entry of the table. -/
theorem setcOnPorts : Obligations.SetcOnPorts := by
  intro s r src u n hlive p
  simp only [List.forall_mem_cons, List.not_mem_nil, false_imp_iff, implies_true, and_true]
  refine ⟨⟨setc_port hlive .inuseOff rfl rfl, setc_port hlive .condNone rfl rfl, setc_port hlive .condEq rfl rfl,
    setc_port hlive .condNeq rfl rfl, setc_port hlive .ieEvent rfl rfl, setc_port hlive .ieInterrupt rfl rfl,
    setc_port hlive .driveDrive rfl rfl, setc_port hlive .drivePullDown rfl rfl, setc_port hlive .drivePullUp rfl rfl,
    setc_port hlive .runStop rfl rfl, setc_port hlive .msMaster rfl rfl, setc_port hlive .msSlave rfl rfl,
    setc_port hlive .bufNoBuffers rfl rfl, setc_port hlive .bufBuffers rfl rfl, setc_port hlive .rdyNoReady rfl rfl,
    setc_port hlive .rdyStrobed rfl rfl, setc_port hlive .rdyHandshake rfl rfl, setc_port hlive .noSDelay rfl rfl,
    setc_port hlive .sDelay rfl rfl, setc_port hlive .dataPort rfl rfl, setc_port hlive .noInvert rfl rfl⟩,
    fun hwidth => ⟨setc_port hlive .clockPort rfl (if_pos hwidth), setc_port hlive .readyPort rfl (if_pos hwidth),
      setc_port hlive .invert rfl (if_pos hwidth)⟩⟩

/-! ### What SETC refuses (R357, R452) -/

/-- The resource takes no effect from the mode: it has none there, or the resource is not in use. -/
def State.RefusesMode (s : State) (m : Mode) : Res → Prop
  | .port n => ((s.port n).inuse || m.skipsOnPort s.plat) = true → (s.port n).setMode s.plat s.free m = none
  | .clk n => ((s.clk n).inuse || m.isInuse) = true → (s.clk n).setMode s.plat.refClkId m = none
  | .timer n => (s.timer n).inuse = true → (s.timer n).setMode m = none
  | .chan n => (s.chan n).inuse = true → (s.chan n).setMode m = none
  | _ => True

section Refused

variable {s : State} {r v : Word} {n : Nat} {m : Mode}

theorem setControl_refuses (h : ∀ m x, v.toNat = m.code → s.lookup r = some x → s.RefusesMode m x) :
    setControl r v s = badResource r s := by
  unfold setControl
  split
  case h_1 m n hm hr =>
    have hnone := h m (.port n) (modeOf_eq_some_iff.1 hm) hr
    split
    case isTrue hi => rw [hnone hi]
    case isFalse => rfl
  case h_2 m n hm hr =>
    have hnone := h m (.clk n) (modeOf_eq_some_iff.1 hm) hr
    split
    case isTrue hi => rw [hnone hi]
    case isFalse => rfl
  case h_3 m n hm hr =>
    have hnone := h m (.timer n) (modeOf_eq_some_iff.1 hm) hr
    rw [ite_eq_right_iff.2 hnone]
  case h_4 m n hm hr =>
    have hnone := h m (.chan n) (modeOf_eq_some_iff.1 hm) hr
    rw [ite_eq_right_iff.2 hnone]
  case h_5 => rfl

theorem State.inuse_of_not_live {x : Res} (hx : s.lookup r = some x) (hdead : s.live r = none) : s.inuse x = false := by
  rw [State.live, hx, Option.filter_eq_none_iff] at hdead
  simpa using hdead x rfl

/-- What is not in use takes INUSE_OFF and INUSE_ON at most. -/
theorem State.refusesMode_of_not_inuse {x : Res} (hx : s.inuse x = false) (hoff : m ≠ .inuseOff) (hon : m ≠ .inuseOn) :
    s.RefusesMode m x := by
  have hport : m.skipsOnPort s.plat = false := by cases m <;> simp_all [Mode.skipsOnPort]
  have hclk : m.isInuse = false := by cases m <;> simp_all [Mode.isInuse]
  cases x <;> simp_all [State.RefusesMode, State.inuse]

theorem State.refusesMode_timer (h : m.code ∉ [0x0001, 0x0009, 0x0002, 0x000A]) : s.RefusesMode m (.timer n) := by
  intro _
  cases m <;> simp_all [Mode.code, Timer.setMode]

theorem State.refusesMode_chan (h : m.code ∉ [0x0002, 0x000A]) : s.RefusesMode m (.chan n) := by
  intro _
  cases m <;> simp_all [Mode.code, Chanend.setMode]

theorem State.refusesMode_clk (h : m.code ∉ [0x0000, 0x0008, 0x0007, 0x000F]) : s.RefusesMode m (.clk n) := by
  intro _
  cases m <;> simp_all [Mode.code, ClockBlock.setMode]

theorem State.refusesMode_port_off (hoff : (s.port n).inuse = false) (hneeds : s.plat.offNeedsInuse = true) :
    s.RefusesMode .inuseOff (.port n) := by
  simp [State.RefusesMode, Mode.skipsOnPort, hoff, hneeds]

/-- The modes for 1-bit ports (R452). -/
theorem State.refusesMode_wide (h : m.code ∈ [0x500F, 0x5017, 0x600F]) (hwidth : (s.port n).width ≠ 1) :
    s.RefusesMode m (.port n) := by
  simp only [List.mem_cons, List.not_mem_nil, or_false] at h
  intro _
  obtain h | h | h := h
  · obtain rfl := Mode.code_injective (m' := .clockPort) h
    exact if_neg hwidth
  · obtain rfl := Mode.code_injective (m' := .readyPort) h
    exact if_neg hwidth
  · obtain rfl := Mode.code_injective (m' := .invert) h
    exact if_neg hwidth

end Refused

/-- Settles O27: a value that the resource takes is the code of a mode with an effect on it; of every other value the
mode, if there is one, is refused. -/
theorem setcOnOthers : Obligations.SetcOnOthers := by
  intro s r src u n
  simp only [exec_setc, exec_setci, List.forall_mem_cons, List.not_mem_nil, false_imp_iff, implies_true, and_true]
  refine ⟨fun hsame => by rw [hsame]; rfl, fun hlive => ?timer, fun hlive => ?chan, fun hr => ?clk,
    fun hr hoff hzero hfollows => ?off, fun hrefused => ?refused⟩
  case timer =>
    exact ⟨fun h => setControl_timer (m := .condNone) h hlive rfl,
      fun h => setControl_timer (m := .condAfter) h hlive rfl, fun h => setControl_timer (m := .ieEvent) h hlive rfl,
      fun h => setControl_timer (m := .ieInterrupt) h hlive rfl⟩
  case chan =>
    exact ⟨fun h => setControl_chan (m := .ieEvent) h hlive rfl,
      fun h => setControl_chan (m := .ieInterrupt) h hlive rfl⟩
  case clk =>
    have hskips : ∀ m : Mode, m.isInuse = true → ((s.clk n).inuse || m.isInuse) = true :=
      fun m h => Bool.or_eq_true_iff.2 (.inr h)
    refine ⟨fun h => setControl_clk (m := .inuseOff) h hr (hskips _ rfl) rfl,
      fun h => setControl_clk (m := .inuseOn) h hr (hskips _ rfl) rfl, fun hinuse => ?_⟩
    have hon : ∀ m : Mode, ((s.clk n).inuse || m.isInuse) = true := fun m => Bool.or_eq_true_iff.2 (.inl hinuse)
    exact ⟨fun h => setControl_clk (m := .runStop) h hr (hon _) rfl,
      fun h => setControl_clk (m := .runStart) h hr (hon _) rfl⟩
  case off =>
    have hskips : ((s.port n).inuse || Mode.inuseOff.skipsOnPort s.plat) = true := by simp [Mode.skipsOnPort, hfollows]
    exact setControl_port_plain (m := .inuseOff) hzero hr hskips rfl rfl
  case refused =>
    have hbad : setControl (s.x r) (s.x src) s = badResource (s.x r) s := by
      refine setControl_refuses fun m x hm hx => ?_
      have hname : ∀ {y}, s.lookup (s.x r) = some y → y = x := fun hr => Option.some.inj (hr.symm.trans hx)
      rw [hm] at hrefused
      obtain hnone | ⟨hnone, hr⟩ | ⟨hnone, hr⟩ | ⟨hnone, hr⟩ | ⟨hafter, hr⟩ | ⟨hzero, hr, hoff, hneeds⟩ |
        ⟨hwide, hr, hwidth⟩ | hr | hr | hr | ⟨hoff, hon, hdead⟩ | hr := hrefused
      · exact absurd m.code_mem hnone
      · exact hname hr ▸ State.refusesMode_timer hnone
      · exact hname hr ▸ State.refusesMode_chan hnone
      · exact hname hr ▸ State.refusesMode_clk hnone
      · obtain rfl := Mode.code_injective (m' := .condAfter) hafter
        exact hname hr ▸ fun _ => rfl
      · obtain rfl := Mode.code_injective (m' := .inuseOff) hzero
        exact hname hr ▸ State.refusesMode_port_off hoff hneeds
      · exact hname hr ▸ State.refusesMode_wide hwide hwidth
      · exact hname hr ▸ trivial
      · exact hname hr ▸ trivial
      · exact hname hr ▸ trivial
      · exact State.refusesMode_of_not_inuse (State.inuse_of_not_live hx hdead) (fun h => hoff (congrArg Mode.code h))
          fun h => hon (congrArg Mode.code h)
      · exact absurd (hr.symm.trans hx) nofun
    rw [hbad]
    exact badResource_spec s _

end Sys2Proof.Machine
end

section
/-! Channel ends and locks (R402 to R442): the registers that SETD, GETD, SETN and GETN reach, output, input, checks and
tests of tokens, claiming and freeing locks, and the delivery of tokens between channel ends. -/
namespace Sys2Proof.Machine

/-! ### Data registers (R420 to R423, R459) -/

section Data

variable {s : State} {d r src : Reg} {n : Nat}

theorem exec_setd (r src : Reg) (s : State) : exec (.setd r src) s = execSetd r src s := rfl
theorem exec_getd (d r : Reg) (s : State) : exec (.getd d r) s = execGetd d r s := rfl
theorem exec_setn (r src : Reg) (s : State) : exec (.setn r src) s = execSetn r src s := rfl
theorem exec_getn (d r : Reg) (s : State) : exec (.getn d r) s = execGetn d r s := rfl

theorem execSetd_chan (hlive : s.live (s.x r) = some (.chan n)) : execSetd r src s =
    if (s.x src).toNat % 256 = 2 ∨ (s.x src).toNat % 256 = 12 then
      .next (s.withChanN n { s.chan n with dest := s.x src, destset := true })
    else badResource (s.x r) s := by
  simp [execSetd, hlive, resType_eq, State.updChan_eq]

theorem execSetd_clk (hlive : s.live (s.x r) = some (.clk n)) : execSetd r src s =
    if (s.clk n).running then badResource (s.x r) s
    else .next (s.withClkN n { s.clk n with div := BitVec.ofNat 8 (s.x src).toNat }) := by
  simp [execSetd, hlive, State.updClk_eq]

/-- Locks, synchronisers and threads have no data register (R420, R421). -/
theorem setd_getd_trap (hlive : s.live (s.x r) = some (.lock n) ∨ s.live (s.x r) = some (.sync n) ∨
    s.live (s.x r) = some (.thread n)) : AllTrap s (s.x r) [.setd r src, .getd d r] := by
  refine dataForms_trap (fun q h => ?_) (fun m h => ?_)
  · cases q <;> simp [h, ResRef.res] at hlive
  · simp [h] at hlive

end Data

/-- Settles O34, by the type of the resource that r names. -/
theorem resourceData : Obligations.ResourceData := by
  intro s d r src n
  simp only [exec_setd, exec_getd, exec_setn, exec_getn]
  refine ⟨fun hlive => ?port, fun hlive => ?timer, fun hlive => ?chan, fun hlive => ?clk, setd_getd_trap⟩
  case port =>
    simp only [execSetd, execGetd, hlive, State.updPort_eq, true_and]
    exact writeReg_spec s d _
  case timer =>
    simp only [execSetd, execGetd, hlive, State.updTimer_eq, true_and]
    exact writeReg_spec s d _
  case chan =>
    rw [execSetd_chan hlive, execSetn, execGetn, withChan_live hlive, withChan_live hlive, State.updChan_eq]
    refine ⟨fun htype => if_pos htype, fun hchan hconfig => ?_, ?_, rfl, writeReg_spec s d _⟩
    · rw [if_neg (not_or.2 ⟨hchan, hconfig⟩)]
      exact badResource_spec s _
    · simp only [execGetd, hlive]
      exact writeReg_spec s d _
  case clk =>
    rw [execSetd_clk hlive]
    refine ⟨fun hstopped => if_neg (by simp [hstopped]), fun hrunning => ?_, ?_⟩
    · rw [if_pos hrunning]
      exact badResource_spec s _
    · simp only [execGetd, hlive, BitVec.ofNat_toNat]
      exact writeReg_spec s d _

/-! ### Tokens (R401, R407, R410) -/

section Tokens

variable {s : State} {n : Nat}

/-- A data token of a word's byte, the least significant being byte 0. -/
theorem dtoken_shiftRight (v : Word) (k : Nat) :
    dtoken (v >>> (8 * k)) = ⟨false, BitVec.ofNat 8 (v.toNat / 256 ^ k)⟩ := by
  have hpow : 2 ^ (8 * k) = 256 ^ k := Nat.pow_mul 2 8 k
  rw [dtoken, ← BitVec.ofNat_toNat, BitVec.toNat_ushiftRight, Nat.shiftRight_eq_div_pow, hpow]

theorem wordTokens_eq (v : Word) : wordTokens v = [⟨false, BitVec.ofNat 8 (v.toNat / 256 ^ 3)⟩,
    ⟨false, BitVec.ofNat 8 (v.toNat / 256 ^ 2)⟩, ⟨false, BitVec.ofNat 8 (v.toNat / 256 ^ 1)⟩,
    ⟨false, BitVec.ofNat 8 (v.toNat / 256 ^ 0)⟩] := by
  simp only [← dtoken_shiftRight]
  simp [wordTokens]

theorem ctoken_eq (v : Word) : ctoken v = ⟨true, BitVec.ofNat 8 v.toNat⟩ := by
  rw [ctoken, BitVec.ofNat_toNat]

theorem ctoken_value (v : Word) : (ctoken v).value.toNat = v.toNat % 256 := by
  simp [ctoken]

theorem ctoken_isHardware (v : Word) : (ctoken v).isHardware = decide (224 ≤ v.toNat % 256) := by
  simp [Token.isHardware, ctoken]

@[simp] theorem Token.closes_data (b : Byte) : Token.closes ⟨false, b⟩ = false := by
  simp [Token.closes, endToken, pauseToken]

/-- END and PAUSE, and no other token, close the route (R407). -/
theorem Token.closes_control (b : Byte) : Token.closes ⟨true, b⟩ = !decide (b.toNat ≠ 1 ∧ b.toNat ≠ 2) := by
  simp [Token.closes, endToken, pauseToken, BitVec.toNat_eq]

/-- Output with room, the route being open afterwards or not (R407). -/
theorem sendTokens_sent {ts : List Token} {isOpen : Bool} (hopen : ts.any Token.closes = !isOpen)
    (hroom : (s.chan n).flight.length + ts.length ≤ s.plat.flightCap) :
    sendTokens n ts s = .next (s.withChanN n { s.chan n with
      flight := (s.chan n).flight ++
        ts.map fun k => (if (s.chan n).route then (s.chan n).routedest else (s.chan n).dest, k)
      routedest := if (s.chan n).route then (s.chan n).routedest else (s.chan n).dest
      route := isOpen }) := by
  rw [sendTokens_room hroom, Chanend.send, hopen, Bool.not_not]

/-! #### Privileged control tokens (R413) -/

/-- The executing thread may send and take the control token: it is no privileged one, or nothing traps. -/
def State.MayUse (s : State) (k : Token) : Prop :=
  k.value.toNat < 192 ∨ s.cur.sr.ink = true ∨ 224 ≤ k.value.toNat ∨ s.plat.privTrap = none

theorem State.privTrapOf_of_mayUse {k : Token} (h : s.MayUse k) : s.privTrapOf k = none := by
  obtain h | h | h | h := h
  · exact State.privTrapOf_none (.inl h)
  · exact State.privTrapOf_none (.inr (.inl h))
  · exact State.privTrapOf_none (.inr (.inr (.inl h)))
  · simp [State.privTrapOf, h]

theorem State.privTrapOf_of_not_mayUse {k : Token} (hcontrol : k.control = true) (h : ¬s.MayUse k) :
    s.privTrapOf k = s.plat.privTrap := by
  simp only [State.MayUse, not_or, Nat.not_lt, Nat.not_le, Bool.not_eq_true] at h
  obtain ⟨hlow, hink, hhigh, -⟩ := h
  simp [State.privTrapOf, hcontrol, hlow, hink, Nat.le_of_lt_succ hhigh]

theorem unlessPrivileged_mayUse {r : Word} {k : Token} (h : s.MayUse k) (f : State → Result) :
    unlessPrivileged r k f s = f s := by
  rw [unlessPrivileged, State.privTrapOf_of_mayUse h]

theorem unlessPrivileged_traps {r : Word} {k : Token} {e : ExcType} (hcontrol : k.control = true) (h : ¬s.MayUse k)
    (he : s.plat.privTrap = some e) (f : State → Result) :
    ∃ t, unlessPrivileged r k f s = .next t ∧ s.trapped t (ExcType.code e) r := by
  rw [unlessPrivileged, State.privTrapOf_of_not_mayUse hcontrol h, he]
  exact raised_spec s e r

end Tokens

/-! ### Output (R424 to R426, R431) -/

section Output

variable {s : State} {r src : Reg} {us : Us} {n : Nat}

theorem exec_outct (r src : Reg) (s : State) : exec (.outct r src) s = outControl (s.x r) (ctoken (s.x src)) s := rfl
theorem exec_outcti (r : Reg) (us : Us) (s : State) :
    exec (.outcti r us) s = outControl (s.x r) (ctoken (usWord us)) s := rfl
theorem exec_outt (r src : Reg) (s : State) :
    exec (.outt r src) s = withOutChan (s.x r) (fun n s => sendTokens n [dtoken (s.x src)] s) s := rfl

theorem exec_out_chan (hlive : s.live (s.x r) = some (.chan n)) :
    exec (.out r src) s = withOutChan (s.x r) (fun n s => sendTokens n (wordTokens (s.x src)) s) s := by
  unfold exec
  simp only [execOut, hlive]

theorem State.valueTraps_iff {v : Word} : s.valueTraps (ctoken v) = true ↔ s.plat.valueFirst = true ∧
    192 ≤ v.toNat % 256 ∧ v.toNat % 256 < 224 ∧ s.cur.sr.ink = false ∧
      s.plat.privTrap = some .illegalResource := by
  have hcontrol : (ctoken v).control = true := rfl
  simp [State.valueTraps, State.privTrapOf, hcontrol, ctoken_value, and_assoc, Nat.lt_succ_iff]

/-- An immediate is below the privileged tokens (R133, R413). -/
theorem ctoken_usWord_value (us : Us) : (ctoken (usWord us)).value.toNat = us.val := by
  rw [ctoken_value, usWord_toNat]
  omega

theorem outControl_sends {v r : Word} (hlive : s.live r = some (.chan n)) (hdest : (s.chan n).destset = true)
    (hv : v.toNat % 256 < 192 ∨ (v.toNat % 256 < 224 ∧ (s.cur.sr.ink = true ∨ s.plat.privTrap = none))) :
    outControl r (ctoken v) s = sendTokens n [ctoken v] s := by
  have hsoft : (ctoken v).isHardware = false := by
    rw [ctoken_isHardware, decide_eq_false_iff_not]
    omega
  have hmay : s.MayUse (ctoken v) := by
    rw [State.MayUse, ctoken_value]
    tauto
  rw [outControl_set hlive hdest, if_neg (by simp [hsoft]), unlessPrivileged_mayUse hmay]

theorem outControl_hardware {v r : Word} (hlive : s.live r = some (.chan n)) (hdest : (s.chan n).destset = true)
    (hv : 224 ≤ v.toNat % 256) : ∃ t, outControl r (ctoken v) s = .next t ∧ s.trapped t 1#32 r := by
  rw [outControl_set hlive hdest, if_pos (by simpa [ctoken_isHardware] using hv)]
  exact raised_spec s .linkError r

theorem outControl_privileged {v r : Word} {e : ExcType} (hlive : s.live r = some (.chan n))
    (hdest : (s.chan n).destset = true) (hlow : 192 ≤ v.toNat % 256) (hhigh : v.toNat % 256 < 224)
    (hink : s.cur.sr.ink = false) (he : s.plat.privTrap = some e) :
    ∃ t, outControl r (ctoken v) s = .next t ∧ s.trapped t (ExcType.code e) r := by
  have hsoft : (ctoken v).isHardware = false := by
    rw [ctoken_isHardware, decide_eq_false_iff_not]
    omega
  have hmay : ¬s.MayUse (ctoken v) := by
    simp [State.MayUse, ctoken_value, hlow, hhigh, hink, he]
  rw [outControl_set hlive hdest, if_neg (by simp [hsoft])]
  exact unlessPrivileged_traps rfl hmay he _

/-- With no destination set nothing is sent (R411). -/
theorem outputs_unset (hlive : s.live (s.x r) = some (.chan n)) (hdest : (s.chan n).destset = false) :
    ∀ i ∈ ([.outt r src, .outcti r us, .out r src] : List Instr),
      ∃ t, exec i s = .next t ∧ s.trapped t 1#32 (s.x r) := by
  have hvalue : s.valueTraps (ctoken (usWord us)) = false := by
    rw [← Bool.not_eq_true, State.valueTraps_iff, usWord_toNat]
    omega
  simp only [List.forall_mem_cons, List.not_mem_nil, false_imp_iff, implies_true, and_true]
  rw [exec_outt, exec_outcti, exec_out_chan hlive]
  exact ⟨withOutChan_unset hlive hdest _, outControl_unset hlive hvalue hdest, withOutChan_unset hlive hdest _⟩

/-! With a destination set the output instructions send their tokens, or wait until there is room. -/

theorem exec_outt_set (hlive : s.live (s.x r) = some (.chan n)) (hdest : (s.chan n).destset = true) :
    exec (.outt r src) s = sendTokens n [dtoken (s.x src)] s := withOutChan_set hlive hdest _

theorem exec_out_set (hlive : s.live (s.x r) = some (.chan n)) (hdest : (s.chan n).destset = true) :
    exec (.out r src) s = sendTokens n (wordTokens (s.x src)) s :=
  (exec_out_chan hlive).trans (withOutChan_set hlive hdest _)

theorem exec_outcti_set (hlive : s.live (s.x r) = some (.chan n)) (hdest : (s.chan n).destset = true) :
    exec (.outcti r us) s = sendTokens n [ctoken (usWord us)] s :=
  outControl_sends hlive hdest (.inl (by rw [usWord_toNat]; omega))

/-- A control token sent with room (R425). -/
theorem sendControl_sent {v : Word} (hroom : (s.chan n).flight.length + 1 ≤ s.plat.flightCap) :
    sendTokens n [ctoken v] s = .next (s.withChanN n { s.chan n with
      flight := (s.chan n).flight ++ ([⟨true, BitVec.ofNat 8 v.toNat⟩] : List Token).map fun k =>
        (if (s.chan n).route then (s.chan n).routedest else (s.chan n).dest, k)
      routedest := if (s.chan n).route then (s.chan n).routedest else (s.chan n).dest
      route := decide ((BitVec.ofNat 8 v.toNat).toNat ≠ 1 ∧ (BitVec.ofNat 8 v.toNat).toNat ≠ 2) }) := by
  rw [ctoken_eq]
  exact sendTokens_sent (by rw [List.any_cons, Token.closes_control, List.any_nil, Bool.or_false]) hroom

end Output

/-- Settles O35, by whether a destination is set, then by the token and the room. -/
theorem outputs : Obligations.Outputs := by
  intro s r src us n hlive sent dataByte
  refine ⟨fun hdest hroom => ⟨?outt, ?control⟩, fun hdest hroom => ?out,
    fun hdest => ⟨outputs_unset hlive hdest, ?linkFirst, ?valueFirst⟩,
    fun hdest => ⟨outControl_hardware hlive hdest, fun hlow hhigh hink e he =>
      outControl_privileged hlive hdest hlow hhigh hink he, fun hv hfull => ?outctFull, ?full⟩⟩
  case outt =>
    have hbyte : dtoken (s.x src) = dataByte 0 := dtoken_shiftRight (s.x src) 0
    rw [exec_outt_set hlive hdest, hbyte]
    exact sendTokens_sent (by simp [dataByte]) hroom
  case control =>
    simp only [List.forall_mem_cons, List.not_mem_nil, false_imp_iff, implies_true, and_true]
    refine ⟨fun hv => ?_, fun _ => ?_⟩
    · rw [BitVec.toNat_ofNat] at hv
      exact (outControl_sends hlive hdest hv).trans (sendControl_sent hroom)
    · rw [exec_outcti_set hlive hdest, ← usWord_toNat us]
      exact sendControl_sent hroom
  case out =>
    rw [exec_out_set hlive hdest, wordTokens_eq]
    exact sendTokens_sent (by simp) hroom
  case linkFirst =>
    intro hfirst
    exact outControl_unset hlive (Bool.eq_false_iff.2 fun h => hfirst (State.valueTraps_iff.1 h)) hdest
  case valueFirst =>
    intro hfirst
    exact outControl_value hlive (State.valueTraps_iff.2 hfirst)
  case outctFull => exact (outControl_sends hlive hdest hv).trans (sendTokens_full hfull)
  case full =>
    simp only [List.forall_mem_cons, List.not_mem_nil, false_imp_iff, implies_true, and_true]
    rw [exec_outt_set hlive hdest, exec_outcti_set hlive hdest, exec_out_set hlive hdest]
    exact ⟨fun h => sendTokens_full h, fun h => sendTokens_full h, fun h => sendTokens_full h⟩

/-! ### Input of a token (R427 to R430) -/

section Input

variable {s : State} {d r src : Reg} {us : Us} {n : Nat} {k : Token} {rest : List Token}

theorem exec_int (d r : Reg) (s : State) : exec (.int d r) s = execInt d r s := rfl
theorem exec_inct (d r : Reg) (s : State) : exec (.inct d r) s = execInct d r s := rfl
theorem exec_chkct (r src : Reg) (s : State) : exec (.chkct r src) s = checkToken (s.x r) (s.x src) s := rfl
theorem exec_chkcti (r : Reg) (us : Us) (s : State) : exec (.chkcti r us) s = checkToken (s.x r) (usWord us) s := rfl

theorem State.withChanN_setX (n : Nat) (c : Chanend) (v : Word) :
    (s.withChanN n c).setX d v = (s.setX d v).withChanN n c := rfl

/-- A channel end without its head token: a message is under way unless that was END. -/
theorem State.takeHead_eq (hbuf : (s.chan n).inbuf = k :: rest) : s.updChan n Chanend.takeOne =
    s.withChanN n { s.chan n with inbuf := rest, inmsg := decide (k ≠ ⟨true, 1#8⟩) } := by
  rw [State.updChan_eq, Chanend.takeOne_cons hbuf]
  rfl

theorem writeHead_eq (hbuf : (s.chan n).inbuf = k :: rest) : writeReg d k.word (s.updChan n Chanend.takeOne) =
    .next ((s.withThr s.tid (s.cur.put d (BitVec.ofNat 32 k.value.toNat))).withChanN n
      { s.chan n with inbuf := rest, inmsg := decide (k ≠ ⟨true, 1#8⟩) }) := by
  rw [writeReg, State.takeHead_eq hbuf, State.withChanN_setX, State.setX_eq, Token.word, BitVec.ofNat_toNat]

theorem Token.word_eq_iff {v : Word} : k.word = v ↔ v.toNat = k.value.toNat := by
  rw [BitVec.toNat_eq, Token.word, BitVec.toNat_setWidth, Nat.mod_eq_of_lt (by omega), eq_comm]

section Head

variable (hlive : s.live (s.x r) = some (.chan n)) (hbuf : (s.chan n).inbuf = k :: rest)

include hlive hbuf

theorem execInt_head : execInt d r s = if k.control then badResource (s.x r) s else
    .next ((s.withThr s.tid (s.cur.put d (BitVec.ofNat 32 k.value.toNat))).withChanN n
      { s.chan n with inbuf := rest, inmsg := decide (k ≠ ⟨true, 1#8⟩) }) := by
  rw [execInt, withHead_cons hlive hbuf, writeHead_eq hbuf]

theorem execInct_head : execInct d r s = if k.control then
      unlessPrivileged (s.x r) k (fun s => writeReg d k.word (s.updChan n Chanend.takeOne)) s
    else badResource (s.x r) s := withHead_cons hlive hbuf _

theorem checkToken_head (v : Word) : checkToken (s.x r) v s =
    if k.control = true ∧ v.toNat = k.value.toNat then
      unlessPrivileged (s.x r) k (fun s => .next (s.updChan n Chanend.takeOne)) s
    else badResource (s.x r) s := by
  rw [checkToken, withHead_cons hlive hbuf]
  simp only [Bool.and_eq_true, decide_eq_true_eq, Token.word_eq_iff]

/-- The check of a control token: privileged, of the value, or of another (R429). -/
theorem checkToken_control (hcontrol : k.control = true) (v : Word) :
    (∀ e, s.plat.privTrap = some e → v.toNat = k.value.toNat → ¬s.MayUse k →
      ∃ t, checkToken (s.x r) v s = .next t ∧ s.trapped t (ExcType.code e) (s.x r)) ∧
    (v.toNat = k.value.toNat → s.MayUse k → checkToken (s.x r) v s =
      .next (s.withChanN n { s.chan n with inbuf := rest, inmsg := decide (k ≠ ⟨true, 1#8⟩) })) ∧
    (v.toNat ≠ k.value.toNat → ∃ t, checkToken (s.x r) v s = .next t ∧ s.trapped t 4#32 (s.x r)) := by
  rw [checkToken_head hlive hbuf]
  refine ⟨fun e he hv hmay => ?_, fun hv hmay => ?_, fun hv => ?_⟩
  · rw [if_pos ⟨hcontrol, hv⟩]
    exact unlessPrivileged_traps hcontrol hmay he _
  · rw [if_pos ⟨hcontrol, hv⟩, unlessPrivileged_mayUse hmay, State.takeHead_eq hbuf]
  · rw [if_neg fun h => hv h.2]
    exact badResource_spec s _

/-- A data token is neither input as a control token nor checked (R428, R429). -/
theorem controlInputs_trap (hdata : k.control = false) :
    AllTrap s (s.x r) [.inct d r, .chkct r src, .chkcti r us] := by
  have hcheck : ∀ v, checkToken (s.x r) v s = badResource (s.x r) s := fun v => by
    rw [checkToken_head hlive hbuf, if_neg (by simp [hdata])]
  have hinct : execInct d r s = badResource (s.x r) s := by
    rw [execInct_head hlive hbuf, if_neg (by simp [hdata])]
  simp only [AllTrap, List.forall_mem_cons, List.not_mem_nil, false_imp_iff, implies_true, and_true]
  exact ⟨exists_trapped_of_eq hinct, exists_trapped_of_eq (hcheck _), exists_trapped_of_eq (hcheck _)⟩

end Head

end Input

/-- Settles O36, by the head of the buffer: a data token, a control token, or none. -/
theorem tokenInputs : Obligations.TokenInputs := by
  intro s d r src us n hlive
  refine ⟨fun k rest hbuf => ⟨fun hdata => ?data, fun hcontrol => ?control⟩, fun hempty => ?empty⟩
  case data =>
    refine ⟨?_, controlInputs_trap hlive hbuf hdata⟩
    rw [exec_int, execInt_head hlive hbuf, if_neg (by simp [hdata])]
  case control =>
    refine ⟨?int, fun hplain => ?inct, fun e he hprivileged => ?trap, ?check⟩
    case int =>
      rw [exec_int, execInt_head hlive hbuf, if_pos hcontrol]
      exact badResource_spec s _
    case inct =>
      rw [exec_inct, execInct_head hlive hbuf, if_pos hcontrol, unlessPrivileged_mayUse hplain, writeHead_eq hbuf]
    case trap =>
      rw [exec_inct, execInct_head hlive hbuf, if_pos hcontrol]
      exact unlessPrivileged_traps hcontrol hprivileged he _
    case check =>
      simp only [List.forall_mem_cons, List.not_mem_nil, false_imp_iff, implies_true, and_true, ← usWord_toNat us]
      exact ⟨checkToken_control hlive hbuf hcontrol _, checkToken_control hlive hbuf hcontrol _⟩
  case empty =>
    simp only [List.forall_mem_cons, List.not_mem_nil, false_imp_iff, implies_true, and_true, exec_int, exec_inct,
      exec_chkct, exec_chkcti, execInt, execInct, checkToken, withHead_nil hlive hempty]

/-! ### The first four tokens (R410, R432 to R434) -/

section FirstWord

variable {s : State} {d r : Reg} {n : Nat} {c : Chanend}

theorem Chanend.containsControl_iff : c.containsControl = true ↔ ∃ k ∈ c.inbuf.take 4, k.control = true :=
  List.any_eq_true

theorem Chanend.not_containsControl (hdata : ∀ k ∈ c.inbuf.take 4, k.control = false) :
    ¬c.containsControl = true := by
  simpa [Chanend.containsControl_iff] using hdata

/-- The first control token stands after the data tokens (R410). -/
theorem Chanend.controlPos_eq {pre rest : List Token} {k : Token} (hbuf : c.inbuf = pre ++ k :: rest)
    (hlen : pre.length < 4) (hpre : ∀ q ∈ pre, q.control = false) (hk : k.control = true) :
    c.containsControl = true ∧ c.controlPos = pre.length + 1 := by
  have hfirst : c.firstWord = pre ++ k :: rest.take (3 - pre.length) := by
    rw [Chanend.firstWord, hbuf, List.take_append, List.take_of_length_le (by omega),
      show 4 - pre.length = 3 - pre.length + 1 by omega, List.take_succ_cons]
  have hnone : pre.findIdx Token.control = pre.length := List.findIdx_eq_length.2 hpre
  refine ⟨by simp [Chanend.containsControl, hfirst, hk], ?_⟩
  rw [Chanend.controlPos, hfirst, List.findIdx_append, hnone, if_neg (lt_irrefl _), List.findIdx_cons, hk]
  simp

/-- Four data tokens make a word, the first its most significant byte (R432). -/
theorem tokensWord_four (a b c e : Byte) :
    tokensWord [⟨false, a⟩, ⟨false, b⟩, ⟨false, c⟩, ⟨false, e⟩] = a ++ b ++ c ++ e := by
  apply BitVec.eq_of_toNat_eq
  simp only [tokensWord, word, List.foldl_cons, List.foldl_nil, BitVec.toNat_ofNat, BitVec.toNat_append]
  rw [← Nat.shiftLeft_add_eq_or_of_lt e.isLt, ← Nat.shiftLeft_add_eq_or_of_lt c.isLt,
    ← Nat.shiftLeft_add_eq_or_of_lt b.isLt]
  simp only [Nat.shiftLeft_eq]
  omega

theorem exec_in_chan (hlive : s.live (s.x r) = some (.chan n)) : exec (.in_ d r) s = inChan d (s.x r) n s := by
  unfold exec
  simp only [execIn, hlive]

theorem exec_testct (d r : Reg) (s : State) : exec (.testct d r) s = execTestct d r s := rfl
theorem exec_testwct (d r : Reg) (s : State) : exec (.testwct d r) s = execTestwct d r s := rfl
theorem exec_testlcl (d r : Reg) (s : State) : exec (.testlcl d r) s = execTestlcl d r s := rfl

theorem execTestwct_chan (hlive : s.live (s.x r) = some (.chan n)) : execTestwct d r s =
    if (s.chan n).containsControl then writeReg d (word (s.chan n).controlPos) s
    else if 4 ≤ (s.chan n).inbuf.length then writeReg d 0#32 s
    else pauseOnChanIn n s := by
  unfold execTestwct
  exact withChan_live hlive _

theorem execTestlcl_chan (hlive : s.live (s.x r) = some (.chan n)) : execTestlcl d r s =
    if (s.chan n).destset then writeReg d (boolWord (resSpecific (s.chan n).dest == resSpecific (s.x r))) s
    else badResource (s.x r) s := by
  unfold execTestlcl
  exact withChan_live hlive _

/-- Node and core are the high half of an identifier (R351). -/
theorem resSpecific_eq_div (r : Word) : resSpecific r = r.toNat / 65536 := by
  rw [resSpecific_eq]
  omega

end FirstWord

/-- Settles O37, by what the first four tokens are. -/
theorem wordInput : Obligations.WordInput := by
  intro s d r n hlive
  rw [exec_in_chan hlive, inChan]
  refine ⟨fun a b c e rest hbuf => ?word, fun hcontrol => ?control, fun hshort hdata => ?short⟩
  case word =>
    have hfirst : (s.chan n).firstWord = [⟨false, a⟩, ⟨false, b⟩, ⟨false, c⟩, ⟨false, e⟩] := by
      rw [Chanend.firstWord, hbuf]
      rfl
    have hdata : ¬(s.chan n).containsControl = true := by simp [Chanend.containsControl, hfirst]
    have hlong : ¬(s.chan n).inbuf.length < 4 := by simp [hbuf]
    simp only [if_neg hdata, if_neg hlong]
    rw [hfirst, tokensWord_four, writeReg, State.updChan_eq, State.withChanN_setX, State.setX_eq, hbuf]
    rfl
  case control =>
    simp only [if_pos (Chanend.containsControl_iff.2 hcontrol)]
    exact badResource_spec s _
  case short =>
    have hno := Chanend.not_containsControl fun k hk => hdata k (List.mem_of_mem_take hk)
    simp only [if_neg hno, if_pos hshort]
    exact pauseOnChanIn_eq n s

/-- Settles O38: the tests write what they see of the buffer and of the destination, or wait to see it. -/
theorem tokenTests : Obligations.TokenTests := by
  intro s d r n hlive
  rw [exec_testct, exec_testwct, exec_testlcl, execTestwct_chan hlive, execTestlcl_chan hlive]
  refine ⟨fun k rest hbuf => ?head, fun pre k rest hbuf hlen hpre hk => ?position, fun hlong hdata => ?none,
    fun hdest => ?sameCore, fun hdest => ?unset, fun hempty => ?empty, fun hshort hdata => ?short⟩
  case head =>
    rw [execTestct, withHead_cons hlive hbuf]
    exact writeReg_spec s d _
  case position =>
    obtain ⟨hcontrol, hpos⟩ := Chanend.controlPos_eq hbuf hlen hpre hk
    rw [if_pos hcontrol, hpos]
    exact writeReg_spec s d _
  case none =>
    rw [if_neg (Chanend.not_containsControl hdata), if_pos hlong]
    exact writeReg_spec s d _
  case sameCore =>
    rw [if_pos hdest, boolWord, resSpecific_eq_div, resSpecific_eq_div]
    simp only [beq_iff_eq]
    exact writeReg_spec s d _
  case unset =>
    rw [if_neg (by simp [hdest])]
    exact badResource_spec s _
  case empty => rw [execTestct, withHead_nil hlive hempty]
  case short =>
    have hno := Chanend.not_containsControl fun k hk => hdata k (List.mem_of_mem_take hk)
    rw [if_neg hno, if_neg (by omega)]
    exact pauseOnChanIn_eq n s

/-! ### Locks (R441, R442) -/

section Locks

variable {s : State} {d r src : Reg} {n : Nat}

theorem exec_in_lock (hlive : s.live (s.x r) = some (.lock n)) : exec (.in_ d r) s = inLock d (s.x r) n s := by
  unfold exec
  simp only [execIn, hlive]

theorem exec_out_lock (hlive : s.live (s.x r) = some (.lock n)) : exec (.out r src) s = outLock n s := by
  unfold exec
  simp only [execOut, hlive]

@[simp] theorem State.withLockN_self (s : State) (n : Nat) : s.withLockN n (s.lock n) = s := by
  unfold State.withLockN State.lock
  rw [set_getD_self]

/-- The lock is free and the thread's turn has come. -/
theorem inLock_claims {id : Word} (hfree : (s.lock n).held = false)
    (hturn : (s.lock n).queue = [] ∨ ∃ rest, (s.lock n).queue = s.tid :: rest) : inLock d id n s =
      .next ((s.withThr s.tid (s.cur.put d id)).withLockN n
        { s.lock n with held := true, owner := some s.tid, queue := (s.lock n).queue.drop 1 }) := by
  have hopen : (!(s.lock n).held && ((s.lock n).queue.isEmpty || (s.lock n).queue.head? = some s.tid)) = true := by
    obtain hturn | ⟨rest, hturn⟩ := hturn <;> simp [hfree, hturn]
  simp only [inLock, if_pos hopen, writeReg, State.updLock_eq, List.drop_one]
  rw [State.setX_eq]
  rfl

/-- The lock is held, or another thread's turn comes first. -/
theorem inLock_queues {id : Word}
    (hbusy : (s.lock n).held = true ∨ ∃ q rest, (s.lock n).queue = q :: rest ∧ q ≠ s.tid) : inLock d id n s =
      .next ((s.withThr s.tid s.waitingCur).withLockN n { s.lock n with
        queue := if s.tid ∈ (s.lock n).queue then (s.lock n).queue else (s.lock n).queue ++ [s.tid] }) := by
  have hclosed : ¬(!(s.lock n).held && ((s.lock n).queue.isEmpty || (s.lock n).queue.head? = some s.tid)) = true := by
    obtain hheld | ⟨q, rest, hqueue, hne⟩ := hbusy
    · simp [hheld]
    · simp [hqueue, hne]
  simp only [inLock, if_neg hclosed, List.contains_iff_mem]
  split
  · exact (paused_eq s).trans (congrArg _ ((s.withThr s.tid s.waitingCur).withLockN_self n).symm)
  · rw [State.updLock_eq, paused_eq]
    rfl

/-- What resuming a thread changes (R63). -/
theorem State.resumeThr_eq (s : State) (q : Nat) : s.resumeThr q =
    { s.withThr q { s.thr q with sr := { (s.thr q).sr with waiting := false } } with
      ports := s.ports.map fun p => { p with waiter := forget q p.waiter }
      timers := s.timers.map fun x => { x with waiter := forget q x.waiter }
      chans := s.chans.map fun c => { c with waiterIn := forget q c.waiterIn, waiterOut := forget q c.waiterOut } } := by
  rw [State.resumeThr, State.updThr_eq]
  rfl

theorem outLock_empty (hempty : (s.lock n).queue = []) :
    outLock n s = .next (s.withLockN n { s.lock n with held := false, owner := none }) := by
  rw [outLock, hempty]
  exact congrArg _ (s.updLock_eq n _)

theorem outLock_queue {q : Nat} {rest : List Nat} (hqueue : (s.lock n).queue = q :: rest) :
    outLock n s = .next ((s.withLockN n { s.lock n with held := false, owner := none }).resumeThr q) := by
  rw [outLock, hqueue]
  exact congrArg (fun u => Host.Outcome.next (u.resumeThr q)) (s.updLock_eq n _)

end Locks

/-- Settles O39: IN by whether the lock is free for the thread, OUT by the queue. -/
theorem locks : Obligations.Locks := by
  intro s d r src n hlive l
  rw [exec_in_lock hlive, exec_out_lock hlive]
  refine ⟨inLock_claims, inLock_queues, outLock_empty, fun q rest hqueue => ?_⟩
  rw [outLock_queue hqueue, State.resumeThr_eq]
  rfl

/-! ### Delivery of tokens (R402, R404, R405) -/

section Delivery

variable {s : State} {c n : Nat} {o : Owner} {k : Token} {e : Chanend}

/-- The head token goes, the destination takes it. -/
theorem State.deliver_taken {d : Word} {rest : List (Word × Token)} (hne : c ≠ n)
    (hflight : (s.chan c).flight = (d, k) :: rest) (hd : s.lookup d = some (.chan n))
    (he : (s.chan n).accept s.plat (.chan c) k = some e) :
    s.deliver c = (s.withChanN n e).withChanN c { s.chan c with flight := rest } := by
  have hother : (s.withChanN n e).chan c = s.chan c := by
    rw [State.chan_withChanN, if_neg fun h => hne h.1.symm]
  rw [State.deliver_accept hflight hd he, State.updChan_eq, State.updChan_eq, hother, Chanend.dropHead, hflight,
    List.tail_cons]

variable {pl : Platform} {ch : Chanend}

theorem Chanend.accept_pause (hinuse : ch.inuse = true) (howner : ch.owner = none ∨ ch.owner = some o) :
    ch.accept pl o pauseToken = some { ch with owner := none } := by
  simp [Chanend.accept, hinuse, howner]

theorem Chanend.accept_token (hinuse : ch.inuse = true) (howner : ch.owner = none ∨ ch.owner = some o)
    (hk : k ≠ pauseToken) (hroom : ch.inbuf.length < pl.chanBuf) : ch.accept pl o k =
      some { ch with inbuf := ch.inbuf ++ [k], owner := if k = endToken then none else some o } := by
  simp [Chanend.accept, hinuse, howner, hk, hroom]

theorem Chanend.accept_eq_none (h : ch.inuse = false ∨ (∃ o', ch.owner = some o' ∧ o' ≠ o) ∨
    (k ≠ pauseToken ∧ pl.chanBuf ≤ ch.inbuf.length)) : ch.accept pl o k = none := by
  obtain hoff | ⟨o', howner, hne⟩ | ⟨hk, hfull⟩ := h
  · simp [Chanend.accept, hoff]
  · simp [Chanend.accept, howner, hne]
  · simp [Chanend.accept, hk, Nat.not_lt.2 hfull]

end Delivery

/-- Settles O41, by what the destination accepts. -/
theorem tokenDelivery : Obligations.TokenDelivery := by
  intro s c
  refine ⟨fun ms hagenda hthreads => step_of_agenda hthreads hagenda, fun n d k rest hne hflight hd =>
    ⟨fun hinuse howner => ⟨fun hk hroom => ?token, fun hk => ?pause⟩, fun hwait => ?wait⟩⟩
  case token => exact State.deliver_taken hne hflight hd (Chanend.accept_token hinuse howner hk hroom)
  case pause =>
    subst hk
    exact State.deliver_taken hne hflight hd (Chanend.accept_pause hinuse howner)
  case wait => exact State.deliver_wait hflight hd (Chanend.accept_eq_none hwait)

end Sys2Proof.Machine
end

section
/-! The reference clock (R454, R459, R462, R463, R467, R469, R472, R473, R479): what its edges do to the clock blocks on
it, which ports they step, what those ports see, and what a clock cycle does to a port. -/
namespace Sys2Proof.Machine

/-! ### A clock block sees a level (R459, R460) -/

section See

variable {c : ClockBlock} {lvl : Bool}

theorem ClockBlock.see_idle (h : c.inuse = false ∨ c.running = false) :
    c.see lvl = ({ c with srcLevel := lvl }, false) := by
  obtain h | h := h <;> simp [ClockBlock.see, h]

section Runs

variable (hinuse : c.inuse = true) (hrunning : c.running = true)
include hinuse hrunning

theorem ClockBlock.see_undivided (hdiv : c.div.toNat = 0) :
    c.see lvl = ({ c with srcLevel := lvl, level := lvl }, c.level && !lvl) := by
  have hzero : c.div = 0#8 := BitVec.eq_of_toNat_eq hdiv
  simp [ClockBlock.see, hinuse, hrunning, hzero]

/-- A clock block with a divider. -/
theorem ClockBlock.see_divided (hdiv : 0 < c.div.toNat) : c.see lvl =
    if (c.srcLevel && !lvl) = true then
      if c.count + 1 < c.div.toNat then ({ c with srcLevel := lvl, count := c.count + 1 }, false)
      else ({ c with srcLevel := lvl, count := 0, level := !c.level }, c.level)
    else ({ c with srcLevel := lvl }, false) := by
  have hpos : c.div ≠ 0#8 := fun h => by simp [h] at hdiv
  simp only [ClockBlock.see, hinuse, hrunning, hpos, Bool.not_true, Bool.or_self, Bool.false_eq_true, if_false]
  cases c.srcLevel && !lvl <;> rfl

end Runs

/-- What a clock block reports is whether its output falls. -/
theorem ClockBlock.see_snd (c : ClockBlock) (lvl : Bool) : (c.see lvl).2 = (c.level && !(c.see lvl).1.level) := by
  unfold ClockBlock.see
  dsimp only
  split_ifs <;> simp

@[simp] theorem ClockBlock.see_rdysrc (c : ClockBlock) (lvl : Bool) : (c.see lvl).1.rdysrc = c.rdysrc := by
  unfold ClockBlock.see
  dsimp only
  split_ifs <;> rfl

end See

/-! ### The clock blocks on an edge of the reference clock (R454, R459) -/

section Edge

variable {s : State} {k n : Nat}

theorem State.refClocks_clk (hk : k < s.clks.length) : s.refClocks.1.clk k =
    if (s.clk k).source = s.plat.refClkId then ((s.clk k).see s.refLevel).1 else s.clk k := by
  have hclk : s.clk k = s.clks[k] := by simp [State.clk, hk]
  rw [hclk]
  simp only [State.refClocks, State.clk, List.getD_eq_getElem?_getD, List.getElem?_map, List.getElem?_eq_getElem hk,
    Option.map_some, Option.getD_some]
  split <;> rfl

@[simp] theorem State.refClocks_rdysrc (hk : k < s.clks.length) :
    (s.refClocks.1.clk k).rdysrc = (s.clk k).rdysrc := by
  rw [State.refClocks_clk hk]
  split <;> simp

theorem State.mem_refClocks : k ∈ s.refClocks.2 ↔
    k < s.clks.length ∧ (s.clk k).level = true ∧ (s.refClocks.1.clk k).level = false := by
  have hlen : k ∈ s.refClocks.2 → k < s.clks.length := by
    simp only [State.refClocks, List.mem_filter, List.mem_range, List.length_map]
    exact And.left
  by_cases hk : k < s.clks.length
  · have hmem : k ∈ s.refClocks.2 ↔
        (if (s.clk k).source = s.plat.refClkId then (s.clk k).see s.refLevel else (s.clk k, false)).2 = true := by
      simp [State.refClocks, State.clk, hk]
    rw [hmem, State.refClocks_clk hk]
    split
    · simp [ClockBlock.see_snd, hk]
    · simp
  · exact ⟨fun h => absurd (hlen h) hk, fun h => absurd h.1 hk⟩

end Edge

/-! ### The ports that an edge steps (R462) -/

/-- The level and the time after an edge of the reference clock, before its clock blocks have seen it (R454). -/
def State.refTick (s : State) : State :=
  { s with refLevel := !s.refLevel, reftime := if s.refLevel then s.reftime + 1#32 else s.reftime }

/-- The clock of the port falls on an edge of the reference clock (R462). -/
def State.refFalls (s : State) (p : Port) : Bool :=
  (s.refLevel && p.clk = s.plat.refClkId) || s.refTick.refClocks.2.any fun k => clockedBy s.plat k p

/-- The ports in use and running for which `sel` holds, set up for a cycle (R462). -/
def State.setUp (s : State) (sel : Port → Bool) : State :=
  { s with ports := s.ports.map fun p => if p.inuse && p.running && sel p then p.setup else p }

section Step

variable {s : State} {k n : Nat}

theorem State.refEdge_eq (s : State) : s.refEdge = s.refTick.refClocks.1.cyclePorts s.refFalls := rfl

theorem State.refEdge_clk (hk : k < s.clks.length) : s.refEdge.clk k =
    if (s.clk k).source = s.plat.refClkId then ((s.clk k).see !s.refLevel).1 else s.clk k :=
  State.refClocks_clk (s := s.refTick) hk

theorem clockedBy_iff {pl : Platform} {p : Port} :
    clockedBy pl k p = true ↔ p.clk ≠ pl.refClkId ∧ p.clk = word (k * 256 + 6) := by
  show _ ↔ p.clk ≠ pl.refClkId ∧ p.clk = plainId 6 k
  simp [clockedBy]

theorem State.refFalls_iff {p : Port} : s.refFalls p = true ↔
    (p.clk = s.plat.refClkId ∧ s.refLevel = true) ∨ (p.clk ≠ s.plat.refClkId ∧ ∃ k < s.clks.length,
      p.clk = word (k * 256 + 6) ∧ (s.clk k).level = true ∧ (s.refEdge.clk k).level = false) := by
  have hfalls : ∀ k, k ∈ s.refTick.refClocks.2 ↔
      k < s.clks.length ∧ (s.clk k).level = true ∧ (s.refEdge.clk k).level = false := fun _ => State.mem_refClocks
  simp only [State.refFalls, Bool.or_eq_true, Bool.and_eq_true, decide_eq_true_eq, List.any_eq_true, clockedBy_iff,
    hfalls]
  constructor
  · rintro (⟨hlevel, hclk⟩ | ⟨k, ⟨hk, hedge⟩, hne, hclk⟩)
    · exact .inl ⟨hclk, hlevel⟩
    · exact .inr ⟨hne, k, hk, hclk, hedge⟩
  · rintro (⟨hclk, hlevel⟩ | ⟨hne, k, hk, hclk, hedge⟩)
    · exact .inl ⟨hlevel, hclk⟩
    · exact .inr ⟨k, ⟨hk, hedge⟩, hne, hclk⟩

/-- The resources an identifier names are those of the machine (R352). -/
theorem State.lookup_of_machine {t : State} (h : t.machine = s.machine) : t.lookup = s.lookup := by
  simp only [State.machine, Prod.mk.injEq] at h
  obtain ⟨hplat, hthreads, htimers, hchans, hsyncs, hlocks, hclks, hports⟩ := h
  have hfind : ∀ (u : State) (r : Word),
      (u.ports.findIdx? fun p => p.id == r) = (u.ports.map Port.id).findIdx? (· == r) := fun u r => by
    rw [List.findIdx?_map]
    rfl
  funext r
  simp only [State.lookup, hfind, hplat, hthreads, htimers, hchans, hsyncs, hlocks, hclks, hports]

variable {sel : Port → Bool}

@[simp] theorem State.setUp_machine (s : State) (sel : Port → Bool) : (s.setUp sel).machine = s.machine := by
  have hids : (s.setUp sel).ports.map Port.id = s.ports.map Port.id := by
    simp only [State.setUp, List.map_map]
    refine List.map_congr_left fun p _ => ?_
    simp only [Function.comp]
    split <;> rfl
  simp only [State.machine, hids]
  rfl

/-- A port is set up or left as it is. -/
theorem State.setUp_port (s : State) (sel : Port → Bool) (n : Nat) :
    (s.setUp sel).port n = s.port n ∨ (s.setUp sel).port n = (s.port n).setup := by
  by_cases hn : n < s.ports.length
  · simp only [State.setUp, State.port, List.getD_eq_getElem?_getD, List.getElem?_map, List.getElem?_eq_getElem hn,
      Option.map_some, Option.getD_some]
    split
    · exact .inr rfl
    · exact .inl rfl
  · left
    have hle : s.ports.length ≤ n := Nat.le_of_not_lt hn
    simp [State.setUp, State.port, hle]

theorem State.setUp_port_of_sel (hn : n < s.ports.length) (hinuse : (s.port n).inuse = true)
    (hrunning : (s.port n).running = true) (hsel : sel (s.port n) = true) :
    (s.setUp sel).port n = (s.port n).setup := by
  have hp : s.port n = s.ports[n] := by simp [State.port, hn]
  rw [hp] at hinuse hrunning hsel ⊢
  simp [State.setUp, State.port, hn, hinuse, hrunning, hsel]

/-- What an edge does to a port (R462): nothing, or its setup and a cycle with what it sees then. -/
theorem State.cyclePorts_port_of_sel (hn : n < s.ports.length) (hinuse : (s.port n).inuse = true)
    (hrunning : (s.port n).running = true) (hsel : sel (s.port n) = true) : (s.cyclePorts sel).port n =
      (s.port n).setup.cycle ((s.setUp sel).rdyin (s.port n).setup)
        ((s.port n).setup.inverted ((s.setUp sel).pins n)) := by
  rw [State.cyclePorts_port hn, if_pos (by simp [hinuse, hrunning, hsel])]
  rfl

theorem State.cyclePorts_port_of_not_sel (hn : n < s.ports.length)
    (h : ¬(sel (s.port n) = true ∧ (s.port n).inuse = true ∧ (s.port n).running = true)) :
    (s.cyclePorts sel).port n = s.port n := by
  rw [State.cyclePorts_port hn, if_neg]
  simp only [Bool.and_eq_true]
  exact fun ⟨⟨hinuse, hrunning⟩, hsel⟩ => h ⟨hsel, hinuse, hrunning⟩

/-! ### What a port sees (R463, R468, R469) -/

/-- The pins of a data port that does not drive them are the environment's (R469). -/
theorem State.pins_of_not_driving (htype : (s.port n).modes.porttype = .dataPort)
    (hdriving : (s.port n).driving = false) : s.pins n = lowBits (s.port n).ext (s.port n).width := by
  simp [State.pins, htype, hdriving]

theorem State.rdyin_of_refClk {p : Port} (h : p.clk = s.plat.refClkId) : s.rdyin p = true := by
  simp [State.rdyin, h]

theorem State.rdyin_of_no_source {p : Port} (hne : p.clk ≠ s.plat.refClkId) (hclk : s.lookup p.clk = some (.clk k))
    (hsource : (s.clk k).rdysrc = none) : s.rdyin p = true := by
  simp [State.rdyin, hne, hclk, hsource]

theorem State.rdyin_of_source {p : Port} {v : Word} (hne : p.clk ≠ s.plat.refClkId)
    (hclk : s.lookup p.clk = some (.clk k)) (hsource : (s.clk k).rdysrc = some v)
    (hport : s.lookup v = some (.port n)) : s.rdyin p = (s.pins n).getLsbD 0 := by
  simp [State.rdyin, hne, hclk, hsource, hport]

/-- The pins of a data port that does not drive them stay the environment's while the ports are set up. -/
theorem State.setUp_pins_of_not_driving (htype : (s.port n).modes.porttype = .dataPort)
    (hdriving : (s.port n).driving = false) :
    (s.setUp sel).pins n = lowBits (s.port n).ext (s.port n).width := by
  have hstill : (s.port n).setup.driving = false := by
    simp [Port.setup, show (s.port n).advanced.driving = false from hdriving]
  obtain h | h := s.setUp_port sel n
  · rw [State.pins_of_not_driving (by rwa [h]) (by rwa [h]), h]
  · rw [State.pins_of_not_driving (by rw [h]; exact htype) (by rwa [h]), h]
    rfl

/-- The pins of a data port set up to input are the environment's (R469, R479). -/
theorem State.pins_of_setup_input {p : Port} (hp : s.port n = p.setup) (htype : p.modes.porttype = .dataPort)
    (hinput : p.setup.direction = .input) : s.pins n = lowBits p.ext p.width := by
  rw [State.pins_of_not_driving (by rw [hp]; exact htype) (by rw [hp]; exact Port.setup_input hinput), hp]
  rfl

end Step

/-- The value the port logic sees of a word on the pins, where it does not invert (R468). -/
theorem Port.inverted_lowBits_toNat {p : Port} (h : p.modes.invert = .noInvert) (w : Word) :
    (p.inverted (lowBits w p.width)).toNat = w.toNat % 2 ^ p.width := by
  simp [Port.inverted, h, lowBits_toNat]

/-- The same bit by bit, where it inverts. -/
theorem Port.inverted_lowBits_getLsbD {p : Port} (h : p.modes.invert = .invert) (w : Word) {k : Nat} (hk : k < 32) :
    (p.inverted (lowBits w p.width)).getLsbD k = (decide (k < p.width) && !w.getLsbD k) := by
  rw [Port.inverted_getLsbD p _ hk, lowBits_getLsbD, h]
  by_cases hw : k < p.width <;> simp [hw]

/-! ### The ports while an edge of the reference clock is under way (R462, R463) -/

/-- The state in which the ports that an edge of the reference clock steps see their pins: the clock blocks have seen
the edge, and those ports are set up. -/
def State.refSetUp (s : State) : State := s.refTick.refClocks.1.setUp s.refFalls

section Stepped

variable {s : State} {k n m : Nat}

theorem State.refSetUp_lookup (s : State) : s.refSetUp.lookup = s.lookup :=
  State.lookup_of_machine ((State.setUp_machine _ _).trans (State.refClocks_machine _))

theorem State.refSetUp_rdysrc (hk : k < s.clks.length) : (s.refSetUp.clk k).rdysrc = (s.clk k).rdysrc :=
  State.refClocks_rdysrc (s := s.refTick) hk

theorem State.refSetUp_pins (htype : (s.port m).modes.porttype = .dataPort) (hdriving : (s.port m).driving = false) :
    s.refSetUp.pins m = lowBits (s.port m).ext (s.port m).width :=
  State.setUp_pins_of_not_driving (s := s.refTick.refClocks.1) htype hdriving

/-- The ready input that an edge of the reference clock shows to a port on a clock block (R463): true where the clock
block names no port, the environment's pin where it names one that does not drive. -/
theorem State.refSetUp_rdyin {p : Port} (hne : p.clk ≠ s.plat.refClkId) (hclk : s.lookup p.clk = some (.clk k)) :
    ((s.clk k).rdysrc = none → s.refSetUp.rdyin p = true) ∧
    ∀ v m, (s.clk k).rdysrc = some v → s.lookup v = some (.port m) → (s.port m).width = 1 →
      (s.port m).modes.porttype = .dataPort → (s.port m).driving = false →
      s.refSetUp.rdyin p = (s.port m).ext.getLsbD 0 := by
  obtain ⟨-, hk⟩ := State.lookup_eq_some_iff.1 hclk
  rw [← State.refSetUp_rdysrc hk]
  rw [← s.refSetUp_lookup] at hclk
  refine ⟨State.rdyin_of_no_source hne hclk, fun v m hsource hport hwidth htype hdriving => ?_⟩
  rw [← s.refSetUp_lookup] at hport
  rw [State.rdyin_of_source (s := s.refSetUp) hne hclk hsource hport, State.refSetUp_pins htype hdriving,
    lowBits_getLsbD, hwidth]
  simp

theorem State.refEdge_port_of_not_falls (hn : n < s.ports.length)
    (h : ¬(s.refFalls (s.port n) = true ∧ (s.port n).inuse = true ∧ (s.port n).running = true)) :
    s.refEdge.port n = s.port n :=
  State.cyclePorts_port_of_not_sel (s := s.refTick.refClocks.1) hn h

theorem State.refEdge_port (hn : n < s.ports.length) (hinuse : (s.port n).inuse = true)
    (hrunning : (s.port n).running = true) (hfalls : s.refFalls (s.port n) = true) : s.refEdge.port n =
      (s.port n).setup.cycle (s.refSetUp.rdyin (s.port n).setup)
        ((s.port n).setup.inverted (s.refSetUp.pins n)) :=
  State.cyclePorts_port_of_sel (s := s.refTick.refClocks.1) hn hinuse hrunning hfalls

theorem State.refSetUp_port (hn : n < s.ports.length) (hinuse : (s.port n).inuse = true)
    (hrunning : (s.port n).running = true) (hfalls : s.refFalls (s.port n) = true) :
    s.refSetUp.port n = (s.port n).setup :=
  State.setUp_port_of_sel (s := s.refTick.refClocks.1) hn hinuse hrunning hfalls

end Stepped

/-! ### The conditions of a clock cycle (R467, R472) -/

section Conditions

variable {p : Port} {r : Bool} {x : Word}

theorem Port.hasWork_iff : p.hasWork = true ↔ (p.direction = .output ∧ (p.trfull = true ∨ p.sfill ≠ 0)) ∨
    (p.direction = .input ∧ (p.trfull = false ∨ (p.modes.bufmode = .buffered ∧ p.sfill < p.shiftcount))) := by
  unfold Port.hasWork
  cases hd : p.direction with
  | output => simp
  | input => cases hb : p.modes.bufmode <;> simp [or_comm]

theorem Port.enabled_iff : p.enabled r = true ↔ p.modes.rdymode = .noReady ∨
    (p.modes.rdymode = .strobed ∧ (p.modes.msmode = .master ∨ r = true)) ∨
    (p.modes.rdymode = .handshaken ∧ p.hasWork = true ∧ r = true) := by
  unfold Port.enabled
  cases hr : p.modes.rdymode <;> cases hm : p.modes.msmode <;> simp

theorem Port.timeok_iff : p.timeok = true ↔ p.porttimeset = false ∨ p.porttimer = p.porttime := by
  simp [Port.timeok]

theorem lowBits_eq_iff {w v : Word} {n : Nat} : w = lowBits v n ↔ w.toNat = v.toNat % 2 ^ n := by
  rw [← lowBits_toNat, BitVec.toNat_inj]

theorem Port.condmet_iff : p.condmet x = true ↔ (p.cond = .eq → x.toNat = p.data.toNat % 2 ^ p.width) ∧
    (p.cond = .neq → x.toNat ≠ p.data.toNat % 2 ^ p.width) := by
  unfold Port.condmet
  cases hc : p.cond <;> simp [lowBits_eq_iff]

theorem Port.wanted_iff : p.wanted = true ↔
    p.waiter ≠ none ∨ p.es.enb = true ∨ p.cond ≠ .uncond ∨ p.porttimeset = true := by
  simp [Port.wanted, Option.isSome_iff_ne_none, or_assoc]

end Conditions

/-! ### The setup and the ready output of a cycle (R462, R467, R479) -/

section Cycle

variable {p : Port} {r : Bool} {x : Word}

theorem Port.turnsIn_iff : p.turnsIn = true ↔ p.direction = .output ∧ p.modes.bufmode = .synchronised ∧
    p.trfull = false ∧ p.porttimeset = true ∧ p.porttimer = p.porttime := by
  simp [Port.turnsIn, and_assoc]

/-- The setup of a cycle, in which the port turns to input or not. -/
theorem Port.setup_eq {turns : Prop} [Decidable turns]
    (h : { p with porttimer := p.porttimer + 1#16, held := true }.turnsIn = true ↔ turns) : p.setup = { p with
      porttimer := p.porttimer + 1#16, held := true, direction := if turns then .input else p.direction
      driving := p.driving && decide (p.direction = .output ∧ ¬turns) } := by
  have hdir : p.advanced.direction = if turns then .input else p.direction := if_congr h rfl rfl
  have hsetup : p.setup = { p with porttimer := p.porttimer + 1#16, held := true, direction := p.advanced.direction
                                   driving := p.driving && decide (p.advanced.direction = .output) } := rfl
  rw [hsetup, hdir]
  split <;> simp [*]

theorem Port.cycle_of_not_enabled (h : p.enabled r = false) :
    p.cycle r x = { p with rdyout := (p.cycle r x).rdyout } := by
  simp [Port.cycle, h]

/-- The ready output in every cycle of a HANDSHAKEN port. -/
theorem Port.cycle_rdyout_handshaken (h : p.modes.rdymode = .handshaken) : (p.cycle r x).rdyout =
    match p.modes.msmode with
    | .master => p.hasWork
    | .slave => p.enabled r := by
  have hrdyout : ∀ moved, p.rdyoutOf r moved = match p.modes.msmode with
      | .master => p.hasWork
      | .slave => p.enabled r := fun moved => by
    unfold Port.rdyoutOf
    rw [h]
    cases p.modes.msmode <;> rfl
  unfold Port.cycle
  split <;> exact hrdyout _

/-- An enabled cycle is its data step; the ready output of a STROBED master tells whether data moved. -/
theorem Port.cycle_of_cycleEnabled {q : Port} {moved : Bool} (hen : p.enabled r = true)
    (h : p.cycleEnabled x = (q, moved)) : p.cycle r x = { q with rdyout := (p.cycle r x).rdyout } ∧
      (p.modes.rdymode = .strobed ∧ p.modes.msmode = .master → (p.cycle r x).rdyout = moved) := by
  have hcycle : p.cycle r x = { q with rdyout := p.rdyoutOf r moved } := by simp [Port.cycle, hen, h]
  rw [hcycle]
  refine ⟨rfl, fun ⟨hstrobed, hmaster⟩ => ?_⟩
  simp [Port.rdyoutOf, hstrobed, hmaster]

/-! ### The data step of an enabled cycle (R472, R473) -/

theorem Port.cycleEnabled_synchronised (h : p.modes.bufmode = .synchronised) : p.cycleEnabled x = p.cycleSync x := by
  simp [Port.cycleEnabled, h]

theorem Port.cycleEnabled_output (hmode : p.modes.bufmode = .buffered) (hdir : p.direction = .output) :
    p.cycleEnabled x = p.cycleOut := by
  simp [Port.cycleEnabled, hmode, hdir]

theorem Port.cycleEnabled_input (hmode : p.modes.bufmode = .buffered) (hdir : p.direction = .input) :
    p.cycleEnabled x = if p.cond = .uncond then p.cycleIn x else p.cycleCond x := by
  simp [Port.cycleEnabled, hmode, hdir]

/-- A SYNCHRONISED port that outputs drives what its transfer register holds, at its time. -/
theorem Port.cycleSync_output (hdir : p.direction = .output) : p.cycleSync x =
    if p.trfull = true ∧ p.timeok = true then
      ({ p with trfull := false, outval := BitVec.ofNat 32 (p.transfer.toNat % 2 ^ p.width), driving := true
                held := false, timestamp := p.porttimer, porttimeset := false }, true)
    else (p, false) := by
  simp [Port.cycleSync, hdir, Port.driveOut, Port.stamped, lowBits_eq, Port.width]

/-- A SYNCHRONISED port that inputs takes what it sees, where that is wanted, at its time and with its condition met. -/
theorem Port.cycleSync_input (hdir : p.direction = .input) : p.cycleSync x =
    if p.trfull = false ∧ p.timeok = true ∧ p.wanted = true ∧ p.condmet x = true then
      ({ p with transfer := x, trfull := true, cond := .uncond, timestamp := p.porttimer, porttimeset := false }, true)
    else (p, false) := by
  simp [Port.cycleSync, hdir, Port.stamped, and_assoc]

/-- The transfer register of a BUFFERED port that outputs can move to its shift register. -/
theorem Port.reload_eq (p : Port) : p.reload =
    if p.sfill = 0 ∧ p.trfull = true ∧ p.timeok = true then
      { p with shift := p.transfer, sfill := p.shiftcount, trfull := false, shiftcount := p.trwidth
               timestamp := p.porttimer, porttimeset := false }
    else p := by
  simp [Port.reload, Port.stamped, and_assoc]

/-- The lowest item of what the shift register then holds is driven, where there is one. -/
theorem Port.cycleOut_eq {load : Prop} [Decidable load]
    (hload : (p.sfill = 0 ∧ p.trfull = true ∧ p.timeok = true) ↔ load) :
    let sh := if load then p.transfer else p.shift
    let fill := if load then p.shiftcount else p.sfill
    p.cycleOut = ({ p with
      trfull := if load then false else p.trfull, timestamp := if load then p.porttimer else p.timestamp
      porttimeset := if load then false else p.porttimeset, shiftcount := if load then p.trwidth else p.shiftcount
      shift := if fill = 0 then sh else sh >>> p.width, sfill := fill - p.width
      outval := if fill = 0 then p.outval else BitVec.ofNat 32 (sh.toNat % 2 ^ p.width)
      driving := if fill = 0 then p.driving else true, held := if fill = 0 then p.held else false },
      decide (fill ≠ 0)) := by
  intro sh fill
  have hreload : p.reload = { p with
      trfull := if load then false else p.trfull, timestamp := if load then p.porttimer else p.timestamp
      porttimeset := if load then false else p.porttimeset, shiftcount := if load then p.trwidth else p.shiftcount
      shift := sh, sfill := fill } := by
    rw [Port.reload_eq, if_congr hload rfl rfl]
    simp only [sh, fill]
    split <;> rfl
  unfold Port.cycleOut
  rw [hreload]
  by_cases hfill : fill = 0
  · simp [hfill]
  · simp [hfill, Port.driveOut, lowBits_eq, Port.width]

/-- A complete item moves to the transfer register, at its time. -/
theorem Port.refill_eq {full : Prop} [Decidable full]
    (h : (p.sfill = p.shiftcount ∧ p.trfull = false ∧ p.timeok = true) ↔ full) : p.refill = { p with
      sfill := if full then 0 else p.sfill, trfull := if full then true else p.trfull
      transfer := if full then p.shift >>> (p.trwidth - p.shiftcount) else p.transfer
      timestamp := if full then p.porttimer else p.timestamp, porttimeset := if full then false else p.porttimeset
      shiftcount := if full then p.trwidth else p.shiftcount } := by
  have hrefill : p.refill = if full then { p with
      transfer := p.shift >>> (p.trwidth - p.shiftcount), trfull := true, sfill := 0, shiftcount := p.trwidth
      timestamp := p.porttimer, porttimeset := false } else p :=
    if_congr (by simpa [and_assoc] using h) rfl rfl
  rw [hrefill]
  split <;> rfl

/-- Without a condition an item enters the shift register, where it may, and a complete one leaves it. -/
theorem Port.cycleIn_eq {moves full : Prop} [Decidable moves] [Decidable full]
    (hmoves : (p.sfill < p.shiftcount ∨ p.modes.rdymode ≠ .handshaken) ↔ moves)
    (hfull : ((if moves then min (p.sfill + p.width) p.shiftcount else p.sfill) = p.shiftcount ∧ p.trfull = false ∧
      p.timeok = true) ↔ full) :
    let sh := if moves then p.shiftIn x else p.shift
    p.cycleIn x = ({ p with
      shift := sh
      sfill := if full then 0 else if moves then min (p.sfill + p.width) p.shiftcount else p.sfill
      trfull := if full then true else p.trfull
      transfer := if full then sh >>> (p.trwidth - p.shiftcount) else p.transfer
      timestamp := if full then p.porttimer else p.timestamp, porttimeset := if full then false else p.porttimeset
      shiftcount := if full then p.trwidth else p.shiftcount }, decide moves) := by
  intro sh
  unfold Port.cycleIn
  by_cases hm : moves
  · rw [if_pos (by simpa using hmoves.2 hm)]
    rw [if_pos hm] at hfull
    simp only [sh, if_pos hm, decide_eq_true hm]
    rw [Port.refill_eq hfull]
  · rw [if_neg (by simpa using mt hmoves.1 hm)]
    rw [if_neg hm] at hfull
    simp only [sh, if_neg hm, decide_eq_false hm]
    rw [Port.refill_eq hfull]

/-- With a condition every item enters the shift register, and one that meets it goes on to the transfer register. -/
theorem Port.cycleCond_eq {met : Prop} [Decidable met] (h : p.condmet x = true ↔ met) : p.cycleCond x = ({ p with
    shift := p.shiftIn x, transfer := if met then p.shiftIn x else p.transfer, trfull := if met then true else p.trfull
    timestamp := if met then p.porttimer else p.timestamp, cond := if met then .uncond else p.cond
    sfill := if met then 0 else p.sfill, shiftcount := if met then p.trwidth else p.shiftcount }, true) := by
  have hmet : { p with shift := p.shiftIn x }.condmet x = true ↔ met := h
  unfold Port.cycleCond
  dsimp only
  by_cases hm : met
  · simp [hm, hmet.2 hm]
  · simp [hm, mt hmet.1 hm]

end Cycle

/-- Settles O46: an edge is seen by the clock blocks on the reference clock, and the ports whose clock falls are set up
and take a cycle with what they see then; a cycle is its enabling condition and the data step of the port's mode and
direction. -/
theorem referenceClock : Obligations.ReferenceClock := by
  refine ⟨fun s => ⟨fun rest hagenda hthreads => step_of_agenda hthreads hagenda, rfl, rfl, rfl, rfl,
    fun k hk => ?clock, fun n hn => ?port⟩, fun p r x => ?cycle⟩
  case clock =>
    intro c d
    have hd : d = if c.source = s.plat.refClkId then (c.see !s.refLevel).1 else c := State.refEdge_clk hk
    clear_value d c
    refine ⟨fun hidle => ?_, fun hsource hinuse hrunning => ?_⟩
    · rw [hd]
      split
      · next hsource =>
        rw [ClockBlock.see_idle (hidle.resolve_left (not_not.2 hsource))]
        exact ⟨rfl, rfl⟩
      · exact ⟨rfl, rfl⟩
    · rw [if_pos hsource] at hd
      refine ⟨fun hdiv => ?_, fun hdiv hseen => ?_⟩
      · rw [hd, ClockBlock.see_undivided hinuse hrunning hdiv]
      · rw [ClockBlock.see_divided hinuse hrunning hdiv, hseen] at hd
        refine ⟨fun hlow => ?_, fun hhigh hcount => ?_, fun hhigh hcount => ?_⟩
        · simp [hd, hlow]
        · simp [hd, hhigh, hcount]
        · simp [hd, hhigh, Nat.not_lt.2 hcount]
  case port =>
    intro p q falls
    have hfalls : s.refFalls p = true ↔ falls := State.refFalls_iff
    refine ⟨fun hnot => State.refEdge_port_of_not_falls hn (by rwa [← hfalls] at hnot),
      fun hclk hinuse hrunning => ?_⟩
    refine ⟨s.refSetUp.rdyin p.setup, p.setup.inverted (s.refSetUp.pins n),
      State.refEdge_port hn hinuse hrunning (hfalls.2 hclk), State.rdyin_of_refClk (s := s.refSetUp) (p := p.setup),
      fun hne k => State.refSetUp_rdyin (p := p.setup) hne, fun hinput htype => ?_⟩
    rw [State.pins_of_setup_input (State.refSetUp_port hn hinuse hrunning (hfalls.2 hclk)) htype hinput]
    exact ⟨fun h => Port.inverted_lowBits_toNat (p := p.setup) h _,
      fun h k hk => Port.inverted_lowBits_getLsbD (p := p.setup) h _ hk⟩
  case cycle =>
    intro turns timeok met work en c strobe
    have htimeok : p.timeok = true ↔ timeok := Port.timeok_iff
    have hmet : p.condmet x = true ↔ met := Port.condmet_iff
    have hwork : p.hasWork = true ↔ work := Port.hasWork_iff
    have hen : p.enabled r = true ↔ en := Port.enabled_iff.trans (by rw [hwork])
    refine ⟨?setup, fun hhand hmaster => ?master, fun hhand hslave => ?slave, fun hnot => ?notEnabled,
      fun h hmode hdir => ?syncOutput, fun h hmode hdir => ?syncInput, fun h hmode hdir => ?bufOutput,
      fun h hmode hdir => ?bufInput⟩
    case setup => exact Port.setup_eq Port.turnsIn_iff
    case master =>
      refine (Port.cycle_rdyout_handshaken hhand).trans ?_
      simp only [hmaster]
      exact Bool.eq_iff_iff.2 (hwork.trans decide_eq_true_iff.symm)
    case slave =>
      refine (Port.cycle_rdyout_handshaken hhand).trans ?_
      simp only [hslave]
      exact Bool.eq_iff_iff.2 (hen.trans decide_eq_true_iff.symm)
    case notEnabled => exact Port.cycle_of_not_enabled (by rwa [← hen, Bool.not_eq_true] at hnot)
    case syncOutput =>
      have hdata := (Port.cycleEnabled_synchronised (x := x) hmode).trans (Port.cycleSync_output hdir)
      have hmove : (p.trfull = true ∧ p.timeok = true) ↔ p.trfull = true ∧ timeok := and_congr_right' htimeok
      exact ⟨fun hdrives => Port.cycle_of_cycleEnabled (hen.2 h) (hdata.trans (if_pos (hmove.2 hdrives))),
        fun hstay => Port.cycle_of_cycleEnabled (hen.2 h) (hdata.trans (if_neg (mt hmove.1 hstay)))⟩
    case syncInput =>
      intro take
      have htake : (p.trfull = false ∧ p.timeok = true ∧ p.wanted = true ∧ p.condmet x = true) ↔ take := by
        rw [htimeok, Port.wanted_iff, hmet]
      have hdata := (Port.cycleEnabled_synchronised (x := x) hmode).trans (Port.cycleSync_input hdir)
      exact ⟨fun hmove => Port.cycle_of_cycleEnabled (hen.2 h) (hdata.trans (if_pos (htake.2 hmove))),
        fun hstay => Port.cycle_of_cycleEnabled (hen.2 h) (hdata.trans (if_neg (mt htake.1 hstay)))⟩
    case bufOutput =>
      intro load sh fill
      have hload : (p.sfill = 0 ∧ p.trfull = true ∧ p.timeok = true) ↔ load := by rw [htimeok]
      exact (Port.cycle_of_cycleEnabled (hen.2 h)
        ((Port.cycleEnabled_output hmode hdir).trans (Port.cycleOut_eq hload))).symm
    case bufInput =>
      have hdata := Port.cycleEnabled_input (x := x) hmode hdir
      refine ⟨fun hstrobe => ?moved, fun hcond => ?uncond, fun hcond => ?cond⟩
      case moved =>
        by_cases hcond : p.cond = .uncond
        · rw [if_pos hcond, Port.cycleIn_eq Iff.rfl Iff.rfl] at hdata
          obtain ⟨-, hrdyout⟩ := Port.cycle_of_cycleEnabled (hen.2 h) hdata
          exact (hrdyout hstrobe).trans (by simp [hstrobe.1])
        · rw [if_neg hcond, Port.cycleCond_eq hmet] at hdata
          exact (Port.cycle_of_cycleEnabled (hen.2 h) hdata).2 hstrobe
      case uncond =>
        intro moves sh fill full'
        have hfull : (fill = p.shiftcount ∧ p.trfull = false ∧ p.timeok = true) ↔ full' := by rw [htimeok]
        rw [if_pos hcond, Port.cycleIn_eq Iff.rfl hfull] at hdata
        exact (Port.cycle_of_cycleEnabled (hen.2 h) hdata).1
      case cond =>
        rw [if_neg hcond, Port.cycleCond_eq hmet] at hdata
        exact (Port.cycle_of_cycleEnabled (hen.2 h) hdata).1

end Sys2Proof.Machine
end

section
/-! The instructions on timers, clock blocks and ports (R452 to R457, R461 to R483, R488 to R493): each settled through
what it makes of the port, and through what the shared input and output of a port can do. -/
namespace Sys2Proof.Machine

/-! ### Timers (R456, R457) -/

theorem exec_in_timer {s : State} {d r : Reg} {n : Nat} (hlive : s.live (s.x r) = some (.timer n)) :
    exec (.in_ d r) s = inTimer d n s := by
  unfold exec
  simp only [execIn, hlive]

/-- One time is after another where it is later by 1 to 2^31 - 1 (R456). -/
theorem afterTime_iff {now x : Word} : afterTime now x = true ↔
    1 ≤ (now.toNat + 2 ^ 32 - x.toNat) % 2 ^ 32 ∧ (now.toNat + 2 ^ 32 - x.toNat) % 2 ^ 32 < 2 ^ 31 := by
  have hsub : (now - x).toNat = (now.toNat + 2 ^ 32 - x.toNat) % 2 ^ 32 := by
    rw [BitVec.toNat_sub]
    have := x.isLt
    omega
  rw [afterTime, hsub]
  simp only [Bool.and_eq_true, decide_eq_true_eq]
  omega

theorem State.timerReady_iff {s : State} {n : Nat} : s.timerReady n = true ↔
    (s.timer n).cond = .after → afterTime s.reftime (s.timer n).data = true := by
  unfold State.timerReady
  split <;> simp [*]

/-- Settles O40, by whether the timer is ready. -/
theorem timerInput : Obligations.TimerInput := by
  intro s d r n hlive late
  rw [exec_in_timer hlive, inTimer]
  have hready : s.timerReady n = true ↔ ((s.timer n).cond = .after → 1 ≤ late ∧ late < 2 ^ 31) :=
    State.timerReady_iff.trans (imp_congr_right fun _ => afterTime_iff)
  refine ⟨fun h => ?reads, fun hcond hlate => ?waits⟩
  case reads =>
    rw [if_pos (hready.2 fun hcond => h.resolve_left (not_not.2 hcond))]
    exact writeReg_spec s d _
  case waits =>
    have hnot : ¬s.timerReady n = true := fun h => by
      have := hready.1 h hcond
      omega
    rw [if_neg hnot]
    exact pauseOnTimer_eq n s

/-! ### A port switched on, started and cleared (R452, R453, R466) -/

/-- SETCI of a mode on a port that may take it. -/
theorem exec_setci_port {s : State} {r : Reg} {u : BitVec 16} {n : Nat} {m : Mode} {p : Port} (hu : u.toNat = m.code)
    (hr : s.lookup (s.x r) = some (.port n)) (hi : ((s.port n).inuse || m.skipsOnPort s.plat) = true)
    (hp : (s.port n).setMode s.plat s.free m = some p) :
    exec (.setci r u) s = .next { s.withPortN n p with free := s.free + m.freeUsed } :=
  (exec_setci r u s).trans (setControl_port (modeOf_eq_some_iff.2 ((immWord_toNat u).trans hu)) hr hi hp)

/-- Settles O26: the port becomes what its mode makes of it. -/
theorem portRunModes : Obligations.PortRunModes := by
  intro s r n hr
  refine ⟨⟨_, _, exec_setci_port (m := .inuseOn) rfl hr (by simp [Mode.skipsOnPort]) rfl, rfl, rfl, rfl, rfl, rfl, rfl,
    rfl, rfl, rfl, rfl, rfl, rfl, rfl, rfl, rfl, rfl, rfl, rfl, rfl, rfl, rfl⟩, fun hinuse => ?_⟩
  have hon : ∀ m : Mode, ((s.port n).inuse || m.skipsOnPort s.plat) = true := fun m => by simp [hinuse]
  refine ⟨⟨_, _, exec_setci_port (m := .runClrbuf) rfl hr (hon _) rfl, rfl⟩, fun hmode => ?buffered,
    fun hmode => ?synchronised⟩
  case buffered =>
    have hstart : (s.port n).started s.free = { s.port n with
        trfull := false, sfill := 0, shift := Config.freeWord s.free, running := true, direction := .input
        inputting := false } := by
      simp [Port.started, Port.emptied, hmode]
    exact ⟨_, _, exec_setci_port (m := .runStart) rfl hr (hon _) (congrArg some hstart), rfl⟩
  case synchronised =>
    have hstart : (s.port n).started s.free = { s.port n with running := true } := by simp [Port.started, hmode]
    exact ⟨_, exec_setci_port (m := .runStart) rfl hr (hon _) (congrArg some hstart), rfl⟩

/-! ### Widths and counts of a BUFFERED port, and what is left to output (R488 to R490, R493) -/

section Widths

variable {s : State} {d r src : Reg} {n : Nat}

theorem exec_settw (r src : Reg) (s : State) : exec (.settw r src) s = execSettw r src s := rfl
theorem exec_setpsc (r src : Reg) (s : State) : exec (.setpsc r src) s = execSetpsc r src s := rfl
theorem exec_endin (d r : Reg) (s : State) : exec (.endin d r) s = execEndin d r s := rfl
theorem exec_syncr (r : Reg) (s : State) : exec (.syncr r) s = execSyncr r s := rfl

theorem State.withPortN_setX (s : State) (n : Nat) (p : Port) (d : Reg) (v : Word) :
    (s.withPortN n p).setX d v = (s.withThr s.tid (s.cur.put d v)).withPortN n p := by
  rw [State.setX_eq]
  rfl

theorem Port.legalWidth_iff {p : Port} {v : Nat} :
    p.legalWidth v = true ↔ (v = 1 ∨ v = 4 ∨ v = 8 ∨ v = 32) ∧ p.width ≤ v ∧ v % p.width = 0 := by
  simp [Port.legalWidth, and_assoc]

theorem Port.validCount_iff {p : Port} {v : Nat} :
    p.validCount v = true ↔ 0 < v ∧ v ≤ p.trwidth ∧ v % p.width = 0 := by
  simp [Port.validCount, and_assoc]

/-- An instruction that goes on under a condition and raises without it. -/
theorem ite_bad_spec {c : Prop} [Decidable c] {t : State} {id : Word} {res : Result}
    (h : res = if c then .next t else badResource id s) :
    if c then res = .next t else ∃ u, res = .next u ∧ s.trapped u 4#32 id := by
  split
  · next hc => rw [h, if_pos hc]
  · next hc =>
    rw [h, if_neg hc]
    exact badResource_spec s id

variable (hlive : s.live (s.x r) = some (.port n))
include hlive

theorem exec_settw_port : exec (.settw r src) s =
    if (s.port n).modes.bufmode = .buffered ∧ (s.port n).legalWidth (s.x src).toNat = true then
      .next (s.withPortN n { s.port n with trwidth := (s.x src).toNat, shiftcount := (s.x src).toNat })
    else badResource (s.x r) s := by
  rw [exec_settw, execSettw, withPort_live hlive]
  simp [State.updPort_eq]

theorem withCount_port (count : Nat) (k : Nat → State → Result) : withCount (s.x r) count k s =
    if (s.port n).modes.bufmode = .buffered ∧ (s.port n).validCount count = true then k n s
    else badResource (s.x r) s := by
  rw [withCount, withPort_live hlive]
  simp

theorem exec_setpsc_port : exec (.setpsc r src) s =
    if (s.port n).modes.bufmode = .buffered ∧ (s.port n).validCount (s.x src).toNat = true then
      .next (s.withPortN n { s.port n with shiftcount := (s.x src).toNat })
    else badResource (s.x r) s := by
  rw [exec_setpsc, execSetpsc, withCount_port hlive, State.updPort_eq]

theorem exec_endin_port : exec (.endin d r) s =
    if (s.port n).modes.bufmode = .buffered ∧ (s.port n).direction = .input then
      .next ((s.withThr s.tid (s.cur.put d (BitVec.ofNat 32
        ((if (s.port n).trfull then (s.port n).trwidth else 0) + (s.port n).sfill)))).withPortN n
          { s.port n with shiftcount := if (s.port n).sfill = 0 then (s.port n).trwidth else (s.port n).sfill })
    else badResource (s.x r) s := by
  rw [exec_endin, execEndin, withPort_live hlive]
  simp only [Bool.and_eq_true, decide_eq_true_eq, writeReg, State.updPort_eq, State.withPortN_setX]
  rfl

theorem exec_syncr_port : exec (.syncr r) s =
    if (s.port n).direction = .output ∧
        ((s.port n).trfull = true ∨ (s.port n).sfill ≠ 0 ∨ (s.port n).held = false) then
      pauseOnPort n s
    else .next s := by
  rw [exec_syncr, execSyncr, withPort_live hlive]
  refine if_congr ?_ rfl rfl
  simp [or_assoc]

end Widths

/-- Settles O43: three forms go on under a condition and raise without it, SYNCR waits under one. -/
theorem portWidths : Obligations.PortWidths := by
  intro s d r src n hlive p v
  refine ⟨ite_bad_spec ?settw, ite_bad_spec ?setpsc, ite_bad_spec (exec_endin_port hlive), ?syncr⟩
  case settw => exact (exec_settw_port hlive).trans (if_congr (and_congr_right' Port.legalWidth_iff) rfl rfl)
  case setpsc => exact (exec_setpsc_port hlive).trans (if_congr (and_congr_right' Port.validCount_iff) rfl rfl)
  case syncr =>
    rw [exec_syncr_port hlive]
    split
    · exact pauseOnPort_eq n s
    · rfl

/-! ### Output to a port (R470, R476, R479, R491) -/

section PortOutput

variable {s : State} {r src : Reg} {b : Us} {n : Nat}

theorem Port.fill_eq (v : Word) (p : Port) : p.fill v = { p with
    transfer := BitVec.ofNat 32 (v.toNat % 2 ^ p.trwidth), trfull := true, direction := .output
    sfill := if p.direction = .input then 0 else p.sfill } := by
  rw [Port.fill, Port.turnOut, lowBits_eq]
  cases hdir : p.direction <;> simp [hdir]

variable (hlive : s.live (s.x r) = some (.port n))
include hlive

theorem exec_out_port : exec (.out r src) s = outPort (s.x r) n (s.x src) id id s := by
  unfold exec
  simp only [execOut, hlive]

theorem exec_outshr_port : exec (.outshr r src) s =
    outPort (s.x r) n (s.x src) id (fun t => t.setX src (s.x src >>> (s.port n).trwidth)) s := by
  unfold exec
  exact withPort_live hlive _

theorem exec_outpw_port : exec (.outpw src r b) s =
    if (s.port n).modes.bufmode = .buffered ∧ (s.port n).validCount (bitp b) = true then
      outPort (s.x r) n (s.x src) (fun p => { p with shiftcount := bitp b }) id s
    else badResource (s.x r) s := by
  unfold exec
  exact withCount_port hlive _ _

/-- A BUFFERED port that has been input from takes no output (R470). -/
theorem outputs_trap_inputting (hdir : (s.port n).direction = .input)
    (hmode : (s.port n).modes.bufmode = .buffered) (hinput : (s.port n).inputting = true) :
    AllTrap s (s.x r) [.out r src, .outshr r src, .outpw src r b] := by
  simp only [AllTrap, List.forall_mem_cons, List.not_mem_nil, false_imp_iff, implies_true, and_true]
  refine ⟨exists_trapped_of_eq ?_, exists_trapped_of_eq ?_, exists_trapped_of_eq ?_⟩
  · exact (exec_out_port hlive).trans (outPort_inputting hdir hmode hinput)
  · exact (exec_outshr_port hlive).trans (outPort_inputting hdir hmode hinput)
  · rw [exec_outpw_port hlive, outPort_inputting hdir hmode hinput, ite_self]

end PortOutput

/-- Settles O44, by the state of the transfer register and the direction of the port. -/
theorem portOutputs : Obligations.PortOutputs := by
  intro s r src b n hlive p filled fits
  have hfits : (p.modes.bufmode = .buffered ∧ p.validCount (bitp b) = true) ↔ fits :=
    and_congr_right' Port.validCount_iff
  have hfill : p.fill (s.x src) = filled := Port.fill_eq _ _
  refine ⟨fun hnot => ?unfit, fun hdir hfull => ?full, outputs_trap_inputting hlive, fun hroom hmay => ?done⟩
  case unfit => exact exists_trapped_of_eq ((exec_outpw_port hlive).trans (if_neg (mt hfits.1 hnot)))
  case full =>
    simp only [List.forall_mem_cons, List.not_mem_nil, false_imp_iff, implies_true, and_true]
    refine ⟨fun _ => ?_, fun _ => ?_, fun h => ?_⟩
    · exact (exec_out_port hlive).trans (outPort_full hdir hfull)
    · exact (exec_outshr_port hlive).trans (outPort_full hdir hfull)
    · exact (exec_outpw_port hlive).trans ((if_pos (hfits.2 h)).trans (outPort_full hdir hfull))
  case done =>
    refine ⟨?_, ?_, fun h => ?_⟩
    · exact (exec_out_port hlive).trans ((outPort_done hroom hmay).trans (by rw [hfill]; rfl))
    · rw [exec_outshr_port hlive, outPort_done hroom hmay, hfill, State.withPortN_setX, ← Nat.shiftRight_eq_div_pow,
        ← BitVec.toNat_ushiftRight, BitVec.ofNat_toNat, BitVec.setWidth_eq]
      rfl
    · rw [exec_outpw_port hlive, if_pos (hfits.2 h), outPort_done hroom hmay, hfill]
      rfl

/-! ### Input from a port (R471, R477, R479, R492) -/

section PortInput

variable {s : State} {d r : Reg} {b : Us} {n : Nat}

theorem State.lt_of_live_port {v : Word} (hlive : s.live v = some (.port n)) : n < s.ports.length := by
  obtain ⟨hlookup, -⟩ := State.live_iff.1 hlive
  obtain ⟨-, -, hfind⟩ := State.lookup_eq_some_iff.1 hlookup
  exact (State.findIdx?_ports_iff.1 hfind).1

theorem pauseOnPort_withPortN (hn : n < s.ports.length) (p : Port) : pauseOnPort n (s.withPortN n p) =
    .next ((s.withThr s.tid s.waitingCur).withPortN n { p with waiter := some s.tid }) := by
  rw [pauseOnPort_eq, State.port_withPortN, if_pos ⟨rfl, hn⟩]
  simp only [State.withPortN, State.withThr, List.set_set]
  rfl

/-- Input waits where the port inputs and has no data. -/
theorem inPort_waits {id : Word} {f : Port → Port} {k : Word → State → State} (hn : n < s.ports.length)
    (hf : (f (s.port n)).direction = (s.port n).direction) (hdir : (s.port n).direction = .input)
    (hempty : (s.port n).trfull = false) : inPort id n f k s =
      .next ((s.withThr s.tid s.waitingCur).withPortN n { f (s.port n) with waiter := some s.tid }) := by
  have hsame : { f (s.port n) with direction := .input } = f (s.port n) := by rw [← hdir, ← hf]
  rw [inPort_empty hdir hempty, hsame, pauseOnPort_withPortN hn]

/-- Input waits where a SYNCHRONISED port outputs, which turns once its output has left. -/
theorem inPort_turns {id : Word} {k : Word → State → State} (hn : n < s.ports.length)
    (hdir : (s.port n).direction = .output) (hmode : (s.port n).modes.bufmode = .synchronised) :
    inPort id n (fun p => p) k s = .next ((s.withThr s.tid s.waitingCur).withPortN n { s.port n with
      waiter := some s.tid, direction := if (s.port n).trfull then .output else .input }) := by
  cases hfull : (s.port n).trfull
  · simp [inPort, hdir, hmode, hfull, State.updPort_eq, pauseOnPort_withPortN hn]
  · simp [inPort, hdir, hmode, hfull, State.updPort_eq, pauseOnPort_withPortN hn]

theorem Port.beginPartial_eq (tid count : Nat) (p : Port) : p.beginPartial tid count =
    { p with shiftcount := if p.pw = some tid then p.shiftcount else count, pw := some tid } := by
  unfold Port.beginPartial
  split
  · next h => rw [← h]
  · rfl

/-- What INSHR writes: the data at the top, the old bits moved down (R477). -/
theorem shiftedIn_eq {w : Nat} (hw : w ≤ 32) (t x : Word) : (lowBits t w <<< (32 - w)) ||| (x >>> w) =
    BitVec.ofNat 32 (t.toNat % 2 ^ w * 2 ^ (32 - w) + x.toNat / 2 ^ w) := by
  have hpow : 2 ^ w * 2 ^ (32 - w) = 2 ^ 32 := by rw [← Nat.pow_add, Nat.add_sub_cancel' hw]
  have hlow : x.toNat / 2 ^ w < 2 ^ (32 - w) := Nat.div_lt_of_lt_mul (hpow ▸ x.isLt)
  have htop : t.toNat % 2 ^ w * 2 ^ (32 - w) < 2 ^ 32 := by
    rw [← hpow]
    exact Nat.mul_lt_mul_of_pos_right (Nat.mod_lt _ (Nat.two_pow_pos w)) (Nat.two_pow_pos _)
  have hvalue : ((lowBits t w <<< (32 - w)) ||| (x >>> w)).toNat =
      t.toNat % 2 ^ w * 2 ^ (32 - w) + x.toNat / 2 ^ w := by
    rw [BitVec.toNat_or, BitVec.toNat_shiftLeft, BitVec.toNat_ushiftRight, lowBits_toNat, Nat.shiftLeft_eq,
      Nat.mod_eq_of_lt htop, Nat.shiftRight_eq_div_pow, ← Nat.shiftLeft_eq, Nat.shiftLeft_add_eq_or_of_lt hlow]
  rw [← hvalue, BitVec.ofNat_toNat, BitVec.setWidth_eq]

variable (hlive : s.live (s.x r) = some (.port n))
include hlive

theorem exec_in_port : exec (.in_ d r) s = inPort (s.x r) n (fun p => p) (fun v t => t.setX d v) s := by
  unfold exec
  simp only [execIn, hlive]
  rfl

theorem exec_inshr_port : exec (.inshr d r) s = inPort (s.x r) n (fun p => p)
    (fun v t => t.setX d ((v <<< (32 - (s.port n).trwidth)) ||| (s.x d >>> (s.port n).trwidth))) s := by
  unfold exec
  exact withPort_live hlive _

theorem exec_inpw_port : exec (.inpw d r b) s =
    if (s.port n).modes.bufmode = .buffered ∧ (s.port n).validCount (bitp b) = true then
      inPort (s.x r) n (Port.beginPartial s.tid (bitp b)) (fun v t => t.setX d v) s
    else badResource (s.x r) s := by
  unfold exec
  exact withCount_port hlive _ _

/-- A BUFFERED port that outputs takes no input (R471). -/
theorem inputs_trap_output (hdir : (s.port n).direction = .output)
    (hmode : (s.port n).modes.bufmode = .buffered) :
    AllTrap s (s.x r) [.in_ d r, .inshr d r, .inpw d r b] := by
  simp only [AllTrap, List.forall_mem_cons, List.not_mem_nil, false_imp_iff, implies_true, and_true]
  refine ⟨exists_trapped_of_eq ?_, exists_trapped_of_eq ?_, exists_trapped_of_eq ?_⟩
  · exact (exec_in_port hlive).trans (inPort_buffered_output hdir hmode)
  · exact (exec_inshr_port hlive).trans (inPort_buffered_output hdir hmode)
  · rw [exec_inpw_port hlive, inPort_buffered_output hdir hmode, ite_self]

end PortInput

/-- Settles O45, by the direction of the port and the state of its transfer register. -/
theorem portInputs : Obligations.PortInputs := by
  intro s d r b n hlive hwidth p v fits taken count
  have hn := State.lt_of_live_port hlive
  have hfits : (p.modes.bufmode = .buffered ∧ p.validCount (bitp b) = true) ↔ fits :=
    and_congr_right' Port.validCount_iff
  have hbegin : p.beginPartial s.tid (bitp b) = { p with shiftcount := count, pw := some s.tid } :=
    Port.beginPartial_eq _ _ _
  refine ⟨fun hdir hfull => ?ready, fun hdir hempty => ?empty, fun hdir hmode => ?turns, inputs_trap_output hlive,
    fun hnot => ?unfit⟩
  case ready =>
    refine ⟨?_, ?_, fun h => ?_⟩
    · rw [exec_in_port hlive, inPort_ready hdir hfull, State.withPortN_setX, lowBits_eq]
      rfl
    · rw [exec_inshr_port hlive, inPort_ready hdir hfull, State.withPortN_setX, shiftedIn_eq hwidth]
      rfl
    · rw [exec_inpw_port hlive, if_pos (hfits.2 h), inPort_ready hdir hfull, State.withPortN_setX, lowBits_eq, hbegin]
      rfl
  case empty =>
    simp only [List.forall_mem_cons, List.not_mem_nil, false_imp_iff, implies_true, and_true]
    refine ⟨⟨?_, ?_⟩, fun h => ?_⟩
    · exact (exec_in_port hlive).trans (inPort_waits hn rfl hdir hempty)
    · exact (exec_inshr_port hlive).trans (inPort_waits hn rfl hdir hempty)
    · rw [exec_inpw_port hlive, if_pos (hfits.2 h), inPort_waits hn (by rw [hbegin]) hdir hempty, hbegin]
  case turns =>
    simp only [List.forall_mem_cons, List.not_mem_nil, false_imp_iff, implies_true, and_true]
    exact ⟨(exec_in_port hlive).trans (inPort_turns hn hdir hmode),
      (exec_inshr_port hlive).trans (inPort_turns hn hdir hmode)⟩
  case unfit => exact exists_trapped_of_eq ((exec_inpw_port hlive).trans (if_neg (mt hfits.1 hnot)))

/-! ### Clocks, ready ports, port times and pins (R461 to R469, R478, R481 to R483) -/

section Setup

variable {s : State} {d r src : Reg} {v : Word} {n k : Nat}

theorem exec_setclk (r src : Reg) (s : State) : exec (.setclk r src) s = execSetclk r src s := rfl
theorem exec_setrdy (r src : Reg) (s : State) : exec (.setrdy r src) s = execSetrdy r src s := rfl
theorem exec_setpt (r src : Reg) (s : State) : exec (.setpt r src) s = execSetpt r src s := rfl
theorem exec_clrpt (r : Reg) (s : State) : exec (.clrpt r) s = execClrpt r s := rfl
theorem exec_getts (d r : Reg) (s : State) : exec (.getts d r) s = execGetts d r s := rfl
theorem exec_peek (d r : Reg) (s : State) : exec (.peek d r) s = execPeek d r s := rfl

theorem State.isClock_iff : s.isClock v = true ↔ v = s.plat.refClkId ∨ ∃ k, s.lookup v = some (.clk k) := by
  unfold State.isClock
  split <;> simp_all

theorem State.isPort_iff : s.isPort v = true ↔ ∃ q, s.lookup v = some (.port q) := by
  unfold State.isPort
  split <;> simp_all

theorem State.oneBitPort_iff : s.oneBitPort v = true ↔ ∃ q, s.lookup v = some (.port q) ∧ (s.port q).width = 1 := by
  unfold State.oneBitPort
  split <;> simp_all

section OnPort

variable (hlive : s.live (s.x r) = some (.port n))
include hlive

theorem exec_setclk_port : exec (.setclk r src) s =
    if s.isClock (s.x src) = true then .next (s.withPortN n { s.port n with clk := s.x src })
    else badResource (s.x r) s := by
  rw [exec_setclk]
  simp only [execSetclk, hlive, State.updPort_eq]

theorem exec_setrdy_port : exec (.setrdy r src) s =
    if s.isPort (s.x src) = true then .next (s.withPortN n { s.port n with rdyport := some (s.x src) })
    else badResource (s.x r) s := by
  rw [exec_setrdy]
  simp only [execSetrdy, hlive, State.updPort_eq]

theorem exec_setpt_port : exec (.setpt r src) s =
    if (s.port n).direction = .output ∧ (s.port n).trfull = true then pauseOnPort n s
    else .next (s.withPortN n
      { s.port n with porttime := BitVec.ofNat 16 (s.x src).toNat, porttimeset := true }) := by
  rw [exec_setpt, execSetpt, withPort_live hlive, BitVec.ofNat_toNat, State.updPort_eq]
  simp only [Bool.and_eq_true, decide_eq_true_eq]

theorem exec_clrpt_port : exec (.clrpt r) s = .next (s.withPortN n { s.port n with porttimeset := false }) := by
  rw [exec_clrpt, execClrpt, withPort_live hlive, State.updPort_eq]

theorem exec_getts_port :
    exec (.getts d r) s = writeReg d (BitVec.ofNat 32 (s.port n).timestamp.toNat) s := by
  rw [exec_getts, execGetts, withPort_live hlive, BitVec.ofNat_toNat]

theorem exec_peek_port : exec (.peek d r) s = writeReg d (s.pins n) s := by
  rw [exec_peek, execPeek, withPort_live hlive]

end OnPort

section OnClock

variable (hlive : s.live (s.x r) = some (.clk n))
include hlive

theorem exec_setclk_clk : exec (.setclk r src) s =
    if (s.clk n).running = false ∧ (s.x src = s.plat.refClkId ∨ s.oneBitPort (s.x src) = true) then
      .next (s.withClkN n { s.clk n with source := s.x src })
    else badResource (s.x r) s := by
  rw [exec_setclk]
  simp [execSetclk, hlive, State.updClk_eq]

theorem exec_setrdy_clk : exec (.setrdy r src) s =
    if s.oneBitPort (s.x src) = true then .next (s.withClkN n { s.clk n with rdysrc := some (s.x src) })
    else badResource (s.x r) s := by
  rw [exec_setrdy]
  simp only [execSetrdy, hlive, State.updClk_eq]

end OnClock

/-! #### The value on the pins (R468, R469) -/

/-- A port that drives a word shows its low bits, complemented by INVERT; what it pulls down or up is a one or a zero
only where the environment's is. -/
theorem Port.getLsbD_of_driven {p : Port} {pins w : Word} (h : pins = p.drivenPins (p.inverted w)) : ∀ k < 32,
    pins.getLsbD k = (decide (k < p.width) && match p.modes.drive with
      | .drive => w.getLsbD k != decide (p.modes.invert = .invert)
      | .pullDown => (w.getLsbD k != decide (p.modes.invert = .invert)) && p.ext.getLsbD k
      | .pullUp => (w.getLsbD k != decide (p.modes.invert = .invert)) || p.ext.getLsbD k) := by
  intro k hk
  rw [h, Port.drivenPins_getLsbD, Port.inverted_getLsbD p w hk]
  by_cases hwidth : k < p.width <;> cases p.modes.drive <;> simp [hwidth]

theorem State.clockLevel_ref (h : v = s.plat.refClkId) : s.clockLevel v = s.refLevel := if_pos h

theorem State.clockLevel_clk (hne : v ≠ s.plat.refClkId) (hclk : s.lookup v = some (.clk k)) :
    s.clockLevel v = (s.clk k).level := by
  simp [State.clockLevel, hne, hclk]

section Pins

variable (hinuse : (s.port n).inuse = true)
include hinuse

theorem State.pins_of_driving (htype : (s.port n).modes.porttype = .dataPort) (hdriving : (s.port n).driving = true) :
    s.pins n = (s.port n).drivenPins ((s.port n).inverted (s.port n).outval) := by
  simp [State.pins, hinuse, htype, hdriving]

theorem State.pins_of_clockPort (htype : (s.port n).modes.porttype = .clockPort) :
    s.pins n = (s.port n).drivenPins ((s.port n).inverted (boolWord (s.clockLevel (s.port n).clk))) := by
  simp [State.pins, hinuse, htype]

theorem State.pins_of_readyPort {q : Nat} (htype : (s.port n).modes.porttype = .readyPort)
    (hready : (s.port n).rdyport = some v) (hq : s.lookup v = some (.port q)) :
    s.pins n = (s.port n).drivenPins ((s.port n).inverted (boolWord (s.port q).rdyout)) := by
  simp [State.pins, hinuse, htype, hready, hq]

theorem State.pins_of_no_readyPort (htype : (s.port n).modes.porttype = .readyPort)
    (hready : (s.port n).rdyport = none) : s.pins n = lowBits (s.port n).ext (s.port n).width := by
  simp [State.pins, hinuse, htype, hready]

end Pins

end Setup

/-- Settles O42: SETCLK and SETRDY by what the second operand names, and the pins by the type of the port. -/
theorem portSetup : Obligations.PortSetup := by
  intro s d r src n
  refine ⟨fun hlive => ?port, fun hlive => ?clk⟩
  case port =>
    have hinuse : (s.port n).inuse = true := (State.live_iff.1 hlive).2
    refine ⟨fun h => ?_, fun h => ?_, fun ⟨hne, hnone⟩ => ?_, fun hnone => ?_, ?setpt, exec_clrpt_port hlive, ?getts,
      ?peek, fun htype hstill => ?still, ?pins⟩
    · exact (exec_setclk_port hlive).trans (if_pos (State.isClock_iff.2 h))
    · exact (exec_setrdy_port hlive).trans (if_pos (State.isPort_iff.2 h))
    · refine exists_trapped_of_eq ((exec_setclk_port hlive).trans (if_neg fun h => ?_))
      obtain h | ⟨k, hk⟩ := State.isClock_iff.1 h
      · exact hne h
      · exact hnone k hk
    · refine exists_trapped_of_eq ((exec_setrdy_port hlive).trans (if_neg fun h => ?_))
      obtain ⟨q, hq⟩ := State.isPort_iff.1 h
      exact hnone q hq
    case setpt =>
      rw [exec_setpt_port hlive]
      split
      · exact pauseOnPort_eq n s
      · rfl
    case getts =>
      rw [exec_getts_port hlive]
      exact writeReg_spec s d _
    case peek =>
      rw [exec_peek_port hlive]
      exact writeReg_spec s d _
    case still => rw [State.pins_of_not_driving htype hstill, lowBits_toNat]
    case pins =>
      intro p shows
      refine ⟨fun htype hdriving => ?_, fun htype => ⟨fun href => ?_, fun hne k hk => ?_⟩,
        fun htype => ⟨fun v q hv hq => ?_, fun hnone => ?_⟩⟩
      · exact Port.getLsbD_of_driven (State.pins_of_driving hinuse htype hdriving)
      · exact Port.getLsbD_of_driven (State.clockLevel_ref href ▸ State.pins_of_clockPort hinuse htype)
      · exact Port.getLsbD_of_driven (State.clockLevel_clk hne hk ▸ State.pins_of_clockPort hinuse htype)
      · exact Port.getLsbD_of_driven (State.pins_of_readyPort hinuse htype hv hq)
      · rw [State.pins_of_no_readyPort hinuse htype hnone, lowBits_toNat]
  case clk =>
    refine ⟨fun hstopped hsource => ?_, fun hone => ?_, fun hbad => ?_, fun hwide => ?_⟩
    · exact (exec_setclk_clk hlive).trans (if_pos ⟨hstopped, hsource.imp_right State.oneBitPort_iff.2⟩)
    · exact (exec_setrdy_clk hlive).trans (if_pos (State.oneBitPort_iff.2 hone))
    · refine exists_trapped_of_eq ((exec_setclk_clk hlive).trans (if_neg fun ⟨hstopped, hsource⟩ => ?_))
      obtain hrunning | ⟨hne, hwide⟩ := hbad
      · simp [hrunning] at hstopped
      · obtain ⟨q, hq, hone⟩ := State.oneBitPort_iff.1 (hsource.resolve_left hne)
        exact hwide q hq hone
    · refine exists_trapped_of_eq ((exec_setrdy_clk hlive).trans (if_neg fun h => ?_))
      obtain ⟨q, hq, hone⟩ := State.oneBitPort_iff.1 h
      exact hwide q hq hone

end Sys2Proof.Machine
end

section
/-! Events and the kernel (R526 to R577): setting up the event state of a resource, the calls that raise and the return
from them, and the saved registers with the stack slots that hold them. -/
namespace Sys2Proof.Machine

/-! ### The event state of a resource (R526 to R536) -/

/-- An instruction that changes the event state of a resource goes on with the changed one. -/
theorem withEventRes_updEs {s : State} {r : Word} {q : ResRef} (hlive : s.live r = some q.res)
    (f : State → EventState → EventState) :
    withEventRes r (fun q s => .next (s.updEs q (f s))) s = .next (s.withEsN q (f s (s.es q))) := by
  rw [withEventRes_live hlive, State.updEs_eq]

theorem setEnable_live {s : State} {r : Word} {q : ResRef} (hlive : s.live r = some q.res) {b b' : Bool}
    (hb : b = b') :
    setEnable r b s = .next (s.withEsN q { s.es q with enb := b', thread := s.tid }) :=
  hb ▸ withEventRes_updEs hlive fun s e => { e with enb := b, thread := s.tid }

theorem bne_zero_eq_decide (w : Word) : (w != 0#32) = decide (w.toNat ≠ 0) :=
  Bool.eq_iff_iff.2 (bne_zero_iff.trans decide_eq_true_iff.symm)

theorem beq_zero_eq_decide (w : Word) : (w == 0#32) = decide (w.toNat = 0) :=
  Bool.eq_iff_iff.2 (beq_zero_iff.trans decide_eq_true_iff.symm)

theorem EventState.disabledFor_eq (tid : Nat) (e : EventState) :
    e.disabledFor tid = if e.thread = tid ∧ e.iemode = .event then { e with enb := false } else e := by
  simp only [EventState.disabledFor, Bool.and_eq_true, decide_eq_true_eq]

theorem State.updCur_eq (s : State) (f : Thread → Thread) : s.updCur f = s.withThr s.tid (f s.cur) :=
  s.updThr_eq s.tid f

/-- CLRE changes the status of its thread, and the event state of every resource (R536). -/
theorem execClre_eq (s : State) : execClre s = .next
    { s.withThr s.tid { s.cur with sr := { s.cur.sr with eeble := false, inenb := false } } with
      ports := s.ports.map fun p => { p with es := p.es.disabledFor s.tid }
      timers := s.timers.map fun x => { x with es := x.es.disabledFor s.tid }
      chans := s.chans.map fun c => { c with es := c.es.disabledFor s.tid } } := by
  rw [execClre, State.updCur_eq]

/-- Settles O49: on a live resource each form replaces its event state, and CLRE goes through every resource. -/
theorem eventSetup : Obligations.EventSetup := by
  intro s d r
  refine ⟨fun q hlive => ⟨?setv, ?setev, ?enables⟩, ?clre⟩
  case setv => exact withEventRes_updEs hlive fun s e => { e with v := s.x r11 }
  case setev => exact withEventRes_updEs hlive fun s e => { e with ev := s.x r11 }
  case enables =>
    simp only [List.forall_mem_cons, List.not_mem_nil, false_imp_iff, implies_true, and_true]
    refine ⟨?eet, ?eef, ?eeu, ?edu⟩
    case eet => exact setEnable_live hlive (bne_zero_eq_decide _)
    case eef => exact setEnable_live hlive (beq_zero_eq_decide _)
    case eeu | edu => exact setEnable_live hlive rfl
  case clre =>
    simp only [← EventState.disabledFor_eq]
    exact execClre_eq s

/-! ### Kernel calls on a condition, and the return (R550 to R554) -/

theorem exec_ecallt (c : Reg) (s : State) :
    exec (.ecallt c) s = if (s.x c).toNat = 0 then .next s else raised .ecall 0#32 s :=
  if_congr word_eq_zero_iff rfl rfl

theorem exec_ecallf (c : Reg) (s : State) :
    exec (.ecallf c) s = if (s.x c).toNat = 0 then raised .ecall 0#32 s else .next s :=
  if_congr word_eq_zero_iff rfl rfl

/-- Settles O51, by whether the register is zero; KRET is the return of R668. -/
theorem ecallAndKret : Obligations.EcallAndKret := by
  intro s c
  rw [exec_ecallt, exec_ecallf]
  refine ⟨fun hset => ?set, fun hzero => ?zero, ⟨_, rfl, s.becomes_kernelReturn⟩⟩
  case set =>
    rw [if_neg hset, if_neg hset]
    exact ⟨raised_spec s .ecall 0#32, rfl⟩
  case zero =>
    rw [if_pos hzero, if_pos hzero]
    exact ⟨raised_spec s .ecall 0#32, rfl⟩

/-! ### The saved registers (R560 to R577) -/

theorem updCur_spec (s : State) (f : Thread → Thread) :
    ∃ t, (.next (s.updCur f) : Result) = .next t ∧ s.becomes t (f s.cur) :=
  ⟨_, rfl, s.updCur_eq f ▸ s.becomes_of_withThr _⟩

/-- A register write after another change of the executing thread is one replacement of it. -/
theorem State.setX_updCur (s : State) (f : Thread → Thread) (d : Reg) (v : Word) :
    (s.updCur f).setX d v = s.withThr s.tid ((f s.cur).put d v) :=
  (s.updThr_updThr s.tid _ _).trans (s.updThr_eq s.tid _)

/-- A load into a saved register of the executing thread. -/
theorem loadThen_updCur {s : State} {a : Word} (f : Word → Thread → Thread) (haligned : a.toNat % 4 = 0)
    (hvalid : memValid s.plat a.toNat = true) :
    ∃ t, loadThen a (fun v s => .next (s.updCur (f v))) s = .next t ∧ s.becomes t (f (s.memRead a 4) s.cur) := by
  rw [loadThen_completes haligned hvalid]
  exact updCur_spec s _

/-- KRESTSP loads sp from the address that it leaves in ksp (R571). -/
theorem execKrestsp_completes {s : State} {u : BitVec 16}
    (haligned : (wordAt (s.x sp) (immWord u)).toNat % 4 = 0)
    (hvalid : memValid s.plat (wordAt (s.x sp) (immWord u)).toNat = true) :
    ∃ t, execKrestsp u s = .next t ∧ s.becomes t
      { s.cur.put sp (s.memRead (wordAt (s.x sp) (immWord u)) 4) with ksp := wordAt (s.x sp) (immWord u) } := by
  rw [execKrestsp, loadThen_completes haligned hvalid, State.setX_updCur]
  exact ⟨_, rfl, s.becomes_of_withThr _⟩

/-- KENTSP stores sp where ksp points before it moves sp below it (R570). -/
theorem execKentsp_completes {s : State} {u : BitVec 16} (hwf : Memory.wf s.mem = true)
    (haligned : s.cur.ksp.toNat % 4 = 0)
    (hvalid : memValid s.plat s.cur.ksp.toNat = true) (hrom : inRom s.plat s.cur.ksp.toNat = false) :
    ∃ t, execKentsp u s = .next t ∧
      s.stores t (s.cur.put sp (wordBack s.cur.ksp (immWord u))) s.cur.ksp 4 (s.x sp) := by
  have hwritable := (writable_iff s.plat s.cur.ksp 4).2 ⟨haligned, hvalid, hrom⟩
  rw [execKentsp, if_pos hwritable, State.setX_eq]
  exact ⟨_, rfl, (s.stores_memWrite hwf s.cur.ksp 4 (s.x sp)).withThr⟩

/-- Settles O52: each form is a load into a saved register, a store of one, or a copy; KRESTSP and KENTSP move sp
besides. -/
theorem savedRegisters : Obligations.SavedRegisters := by
  intro s u
  simp only [List.forall_mem_cons, List.not_mem_nil, false_imp_iff, implies_true, and_true]
  refine ⟨⟨?ldspc, ?ldssr, ?ldsed, ?ldet, execKrestsp_completes⟩,
    fun hwf => ⟨?stspc, ?stssr, ?stsed, ?stet, execKentsp_completes hwf⟩, ?getet, ?geted, ?getkep, ?getksp, ?setkep⟩
  case ldspc => exact loadThen_updCur fun v t => { t with spc := v }
  case ldssr => exact loadThen_updCur fun v t => { t with ssr := v }
  case ldsed => exact loadThen_updCur fun v t => { t with sed := v }
  case ldet => exact loadThen_updCur fun v t => { t with et := v }
  case stspc | stssr | stsed | stet => exact storeVal_spec hwf
  case getet | geted | getkep | getksp => unfold exec; exact writeReg_spec s r11 _
  case setkep => exact updCur_spec s _

end Sys2Proof.Machine
end

section
/-! The issue of an instruction (R96, R112, R131, R651, R664, R665): with no old parcel in the instruction buffer of the
thread and both parcels at addresses that exist, an issue is decided by what the decoder reads at the pc alone. -/
namespace Sys2Proof.Machine

/-! ### The second parcel (R131) -/

/-- A second parcel that the first does not announce is not read. -/
theorem decode_of_not_needsSecond {w1 : Parcel} (hone : needsSecond w1.toNat = false) (rev : Revision)
    (pairs : PairTable) (w2 w2' : Parcel) : decode rev pairs w1 w2 = decode rev pairs w1 w2' := by
  obtain ⟨hpfix, heopr⟩ := needsSecond_eq_false_iff.1 hone
  have hparse : parse pairs w1.toNat w2.toNat = parse pairs w1.toNat w2'.toNat := by
    simp only [parse, if_neg hpfix, if_neg heopr]
  rw [decode, decode, hparse]

/-! ### One issue (R651 c, R664, R665) -/

/-- What a thread does with what the decoder answers, in the state that `State.issue_of_decode` gives. -/
def State.runDecoded (s : State) (t : Nat) : Except DecodeError (Instr × Nat) → Result
  | .error _ => raised .illegalInstruction 0#32 s
  | .ok (i, len) => exec i (s.entered t len)

section Issue

variable {s : State} {t : Nat}

theorem State.fetchParcel_issuing (hfresh : ∀ e ∈ s.stale, e.thread ≠ t) (pc : Word) (a : Nat) :
    { s with tid := t, pcThis := pc }.fetchParcel t a = (Memory.parcel s.mem a, { s with tid := t, pcThis := pc }) :=
  State.fetchParcel_fresh (s := { s with tid := t, pcThis := pc }) hfresh a

/-- With a legal pc, the issue goes by what the two parcels there decode to. -/
theorem State.issue_of_decode {d : Except DecodeError (Instr × Nat)} (hfresh : ∀ e ∈ s.stale, e.thread ≠ t)
    (hpc : legalPc s.plat (s.thr t).pc = true)
    (hsecond : needsSecond (Memory.parcel s.mem (s.thr t).pc.toNat).toNat = true →
      memValid s.plat ((s.thr t).pc + 2#32).toNat = true)
    (hdecode : decode s.plat.revision s.plat.pairs (Memory.parcel s.mem (s.thr t).pc.toNat)
      (Memory.parcel s.mem ((s.thr t).pc + 2#32).toNat) = d) :
    s.issue t = { s with tid := t, pcThis := (s.thr t).pc }.runDecoded t d := by
  simp only [State.issue, hpc, Bool.not_true, Bool.false_eq_true, if_false, State.fetchParcel_issuing hfresh]
  cases hneeds : needsSecond (Memory.parcel s.mem (s.thr t).pc.toNat).toNat with
  | true =>
    rw [if_pos rfl, if_neg (by rw [hsecond hneeds]; decide), hdecode]
    rfl
  | false =>
    rw [if_neg Bool.false_ne_true, decode_of_not_needsSecond hneeds _ _ _ _, hdecode]
    rfl

/-- A decoded instruction runs with its thread as the executing one and the pc moved past it. -/
theorem State.runDecoded_ok (i : Instr) (len : Nat) :
    { s with tid := t, pcThis := (s.thr t).pc }.runDecoded t (.ok (i, len)) = exec i { s with
      tid := t, pcThis := (s.thr t).pc
      threads := s.threads.set t { s.thr t with pc := (s.thr t).pc + BitVec.ofNat 32 len } } := by
  rw [State.runDecoded, State.entered, State.updThr_eq]
  rfl

/-- At an illegal pc nothing is fetched (R664), and at an illegal BOOT_PC the configuration is refused (R722). -/
theorem State.issue_of_illegalPc (hpc : legalPc s.plat (s.thr t).pc = false) :
    s.issue t = if t = 0 ∧ (s.thr t).pc = s.plat.bootPc then .refused .bootPcIllegal
      else raised .illegalPc (s.thr t).pc { s with tid := t, pcThis := (s.thr t).pc } := by
  simp [State.issue, hpc]

theorem State.issue_of_no_second (hfresh : ∀ e ∈ s.stale, e.thread ≠ t) (hpc : legalPc s.plat (s.thr t).pc = true)
    (hneeds : needsSecond (Memory.parcel s.mem (s.thr t).pc.toNat).toNat = true)
    (hmissing : memValid s.plat ((s.thr t).pc + 2#32).toNat = false) :
    s.issue t = raised .illegalPc (s.thr t).pc { s with tid := t, pcThis := (s.thr t).pc } := by
  simp only [State.issue, hpc, State.fetchParcel_issuing hfresh, hneeds, hmissing, Bool.not_true, Bool.not_false,
    Bool.false_eq_true, if_true, if_false]

/-! ### Steps that issue (R651) -/

/-- An XCore with a thread in use has threads, so that a step does not fault. -/
theorem State.threads_ne_nil_of_inuse (h : (s.thr t).inuse = true) : s.threads ≠ [] :=
  List.ne_nil_of_length_pos (Nat.zero_lt_of_lt (s.lt_of_inuse h))

theorem State.inuse_of_runnable (h : s.runnable t = true) : (s.thr t).inuse = true := by
  simp only [State.runnable, State.canAct, Bool.and_eq_true] at h
  obtain ⟨⟨⟨⟨hinuse, -⟩, -⟩, -⟩, -⟩ := h
  exact hinuse

theorem perform_issue (hrun : s.runnable t = true) (hdue : t = 0 → s.debugDue = false) :
    perform s (.issue t) = s.issue t := by
  rw [perform, State.threadMove_of_not_due hdue, if_pos hrun]

/-- The issue that the agenda names. -/
theorem step_issue {rest : List Move} (hagenda : s.agenda = .issue t :: rest) (hrun : s.runnable t = true)
    (hdue : t = 0 → s.debugDue = false) : step s = { s with agenda := rest }.issue t := by
  rw [step_of_agenda (State.threads_ne_nil_of_inuse (State.inuse_of_runnable hrun)) hagenda]
  exact perform_issue (s := { s with agenda := rest }) hrun hdue

/-- The issue that the fixed schedule comes to (log 14). -/
theorem step_auto_issue (hagenda : s.agenda = []) (hturn : s.turn = 0) (hnext : s.nextThread = some t)
    (hrun : s.runnable t = true) (hdue : t = 0 → s.debugDue = false)
    (hclosed : ∀ q ∈ s.allRefs, s.interruptOpen t q = false ∧ s.eventOpen t q = false) :
    step s = { s with turn := 1, rr := t + 1 }.issue t := by
  have hne := State.threads_ne_nil_of_inuse (State.inuse_of_runnable hrun)
  have hthread : step s = { s with turn := 1, rr := t + 1 }.autoThread t := by
    simp [step, State.advance, State.auto, hne, hagenda, hturn, hnext]
  rw [hthread]
  exact State.autoThread_issue (s := { s with turn := 1, rr := t + 1 }) hrun hdue fun q hq => by
    cases q <;> exact hclosed _ hq

end Issue

/-- Settles O4: the step comes down to an issue, on the agenda or by the fixed schedule, and an issue of parcels that
decode runs what they decode to. -/
theorem stepRunsDecoded : Obligations.StepRunsDecoded := by
  rintro s t i len _ _ hrun hdue hfresh hpc hsecond rfl rfl hdecode
  constructor
  · intro rest hagenda
    rw [step_issue hagenda hrun hdue]
    exact (State.issue_of_decode (s := { s with agenda := rest }) hfresh hpc hsecond hdecode).trans
      (State.runDecoded_ok i len)
  · intro hagenda hturn hnext hclosed
    rw [step_auto_issue hagenda hturn hnext hrun hdue hclosed]
    exact (State.issue_of_decode (s := { s with turn := 1, rr := t + 1 }) hfresh hpc hsecond hdecode).trans
      (State.runDecoded_ok i len)

/-- Settles O5, by what is wrong at the pc: the pc itself, the place of the second parcel, or what the parcels decode
to. -/
theorem issueTraps : Obligations.IssueTraps := by
  intro s t rest hagenda hrun hdue hfresh
  rw [step_issue hagenda hrun hdue]
  refine ⟨fun hpc hboot => ?illegal, fun hpc ht hboot => ?refused, fun hpc hneeds hmissing => ?missing,
    fun hpc hsecond hnone => ?undecoded⟩
  case illegal =>
    rw [State.issue_of_illegalPc (s := { s with agenda := rest }) hpc]
    exact if_neg hboot ▸ raised_spec _ .illegalPc _
  case refused => exact (State.issue_of_illegalPc (s := { s with agenda := rest }) hpc).trans (if_pos ⟨ht, hboot⟩)
  case missing =>
    rw [State.issue_of_no_second (s := { s with agenda := rest }) hfresh hpc hneeds hmissing]
    exact raised_spec _ .illegalPc _
  case undecoded =>
    cases hdecode : decode s.plat.revision s.plat.pairs (Memory.parcel s.mem (s.thr t).pc.toNat)
        (Memory.parcel s.mem ((s.thr t).pc + 2#32).toNat) with
    | error e =>
      rw [State.issue_of_decode (s := { s with agenda := rest }) hfresh hpc hsecond hdecode]
      exact raised_spec _ .illegalInstruction _
    | ok p => exact absurd hdecode (hnone p.1 p.2)

end Sys2Proof.Machine
end

section
/-! The state after reset (R721 to R731), on every platform: thread 0 in use, and every other thread and every resource
blank. -/
namespace Sys2Proof.Machine

section ResetOn

variable (pl : Platform) (nthreads ntimers nchans nsyncs nlocks nclks : Nat) (portIds : List Word)
  (image : List Host.Cell)

/-! ### What a number names after reset (R721 to R725) -/

theorem State.thr_resetOn (n : Nat) :
    (State.resetOn pl nthreads ntimers nchans nsyncs nlocks nclks portIds image).thr n =
      if n = 0 then { Thread.blank with inuse := true, pc := pl.bootPc, ksp := pl.kspBoot } else Thread.blank := by
  cases n with
  | zero => rfl
  | succ n => exact List.getElem?_getD_replicate_default_eq _ _ n

theorem State.timer_resetOn (n : Nat) :
    (State.resetOn pl nthreads ntimers nchans nsyncs nlocks nclks portIds image).timer n = Timer.blank :=
  List.getElem?_getD_replicate_default_eq _ _ n

theorem State.chan_resetOn (n : Nat) :
    (State.resetOn pl nthreads ntimers nchans nsyncs nlocks nclks portIds image).chan n = Chanend.blank :=
  List.getElem?_getD_replicate_default_eq _ _ n

theorem State.sync_resetOn (n : Nat) :
    (State.resetOn pl nthreads ntimers nchans nsyncs nlocks nclks portIds image).sync n = Sync.blank :=
  List.getElem?_getD_replicate_default_eq _ _ n

theorem State.lock_resetOn (n : Nat) :
    (State.resetOn pl nthreads ntimers nchans nsyncs nlocks nclks portIds image).lock n = Lock.blank :=
  List.getElem?_getD_replicate_default_eq _ _ n

theorem State.clk_resetOn (n : Nat) :
    (State.resetOn pl nthreads ntimers nchans nsyncs nlocks nclks portIds image).clk n =
      ClockBlock.blank pl.refClkId :=
  List.getElem?_getD_replicate_default_eq _ _ n

/-- A number that no port has stands for a blank port too. -/
theorem State.port_resetOn (n : Nat) : ∃ modes ref id,
    (State.resetOn pl nthreads ntimers nchans nsyncs nlocks nclks portIds image).port n = Port.blank modes ref id := by
  simp only [State.port, State.resetOn, List.getD_eq_getElem?_getD, List.getElem?_map]
  cases portIds[n]? with
  | none => exact ⟨_, _, _, rfl⟩
  | some id => exact ⟨_, _, _, rfl⟩

/-! ### The state after reset (R731) -/

theorem State.initial_resetOn :
    (State.resetOn pl nthreads ntimers nchans nsyncs nlocks nclks portIds image).initial := by
  have hblank {α : Type} {a b : α} {n : Nat} (h : b ∈ List.replicate n a) : b = a := List.eq_of_mem_replicate h
  refine ⟨⟨_, _, rfl, rfl, rfl, rfl, fun u hu => ?free⟩, fun t ht => ?status, rfl, rfl, rfl, fun x hx => ?timer,
    fun c hc => ?chan, fun y hy => ?sync, fun l hl => ?lock, fun c hc => ?clk, fun p hp => ?port⟩
  case free => rw [hblank hu]; rfl
  case status =>
    obtain rfl | ht := List.mem_cons.1 ht
    · rfl
    · rw [hblank ht]; rfl
  case timer => rw [hblank hx]; exact ⟨rfl, rfl, rfl⟩
  case chan => rw [hblank hc]; exact ⟨rfl, rfl, rfl, rfl, rfl, rfl⟩
  case sync => rw [hblank hy]; rfl
  case lock => rw [hblank hl]; rfl
  case clk => rw [hblank hc]; exact ⟨rfl, rfl⟩
  case port =>
    obtain ⟨id, -, rfl⟩ := List.mem_map.1 hp
    exact ⟨rfl, rfl, rfl⟩

theorem State.inv_resetOn (hwf : Memory.wf image = true) :
    (State.resetOn pl nthreads ntimers nchans nsyncs nlocks nclks portIds image).inv = true := by
  simp [State.inv, State.resetOn, hwf, Chanend.ok_blank]

end ResetOn

/-- Settles O7: no byte is listed, and every channel end is empty. -/
theorem resetInv : Obligations.ResetInv := State.inv_resetOn _ _ _ _ _ _ _ _ _ rfl

/-- Settles O9: a number names thread 0, which is in use, or something blank; and reset is an initial configuration on
every platform. -/
theorem resetState : Obligations.ResetState := by
  refine ⟨fun n => ?inuse, fun n => ?status, rfl, rfl, fun n => ?timer, fun n => ?chan, fun n => ?sync, fun n => ?lock,
    fun n => ?clk, fun n => ?port, rfl, fun a => rfl, rfl, rfl, rfl, rfl,
    fun pl nthreads ntimers nchans nsyncs nlocks nclks ports image =>
      ⟨State.initial_resetOn pl nthreads ntimers nchans nsyncs nlocks nclks ports image, rfl, rfl, ?ids⟩⟩
  case inuse => rw [State.reset, State.thr_resetOn]; split <;> simp_all [Thread.blank]
  case status => rw [State.reset, State.thr_resetOn]; split <;> rfl
  case timer => rw [State.reset, State.timer_resetOn]; exact ⟨rfl, rfl⟩
  case chan => rw [State.reset, State.chan_resetOn]; exact ⟨rfl, rfl, rfl⟩
  case sync => rw [State.reset, State.sync_resetOn]; rfl
  case lock => rw [State.reset, State.lock_resetOn]; rfl
  case clk => rw [State.reset, State.clk_resetOn]; rfl
  case port =>
    obtain ⟨modes, ref, id, hport⟩ := State.port_resetOn defaultPlatform 8 10 32 7 4 6 defaultPortIds [] n
    rw [State.reset, hport]
    exact ⟨rfl, rfl⟩
  case ids => exact List.map_map.trans (List.map_id' ports)

end Sys2Proof.Machine
end

section
/-! Entries (R592, R655, R657, R660, R661): a kernel call saves and jumps, and the entries of events, interrupts and
debug mode each take their thread away from its instruction, change its registers and jump. -/
namespace Sys2Proof.Machine

/-! ### Kernel calls (R552, R553, R661) -/

theorem State.becomes_kernelCall (s : State) (info : Word) : s.becomes (s.kernelCall info) { s.cur with
    spc := s.pcThis, ssr := s.cur.sr.toWord, et := 15#32, sed := s.cur.ed, ed := info, pc := s.cur.kep + 64#32
    sr := { s.cur.sr with sink := s.cur.sr.ink, ink := true, eeble := false, ieble := false } } :=
  s.becomes_takeException _ info _

/-- Settles O50: both forms are the kernel-call entry. -/
theorem kernelCallEntry : Obligations.KernelCallEntry := by
  intro s src u
  simp only [List.forall_mem_cons, List.not_mem_nil, false_imp_iff, implies_true, and_true]
  exact ⟨⟨_, rfl, s.becomes_kernelCall _⟩, ⟨_, rfl, s.becomes_kernelCall _⟩⟩

/-! ### A thread taken away from its instruction (R592, R655, R657) -/

/-- The entries of R592, R655 and R657 as one replacement: the thread's registers, and its place in every waiting record
and lock queue. -/
theorem State.detach_updThr_jumpThr (s : State) (t : Nat) (f : Thread → Thread) (v : Word) :
    ((s.detach t).updThr t f).jumpThr t v = { s.withThr t { f (s.thr t) with pc := v } with
      stale := s.stale.filter fun e => e.thread != t
      ports := s.ports.map fun p => { p with waiter := forget t p.waiter, pw := forget t p.pw }
      timers := s.timers.map fun x => { x with waiter := forget t x.waiter }
      chans := s.chans.map fun c => { c with waiterIn := forget t c.waiterIn, waiterOut := forget t c.waiterOut }
      locks := s.locks.map fun l => { l with queue := l.queue.filter fun q => q != t } } := by
  rw [State.jumpThr, State.updThr_updThr, State.updThr_eq, State.detach_thr, State.detach_eq]
  rfl

section Entries

variable {s : State} {t : Nat} {q : ResRef}

theorem State.requests_iff {m : IeMode} : s.requests t m q = true ↔
    (s.es q).thread = t ∧ (s.es q).enb = true ∧ (s.es q).iemode = m ∧ s.refInuse q = true ∧ s.ready q = true := by
  simp only [State.requests, Bool.and_eq_true, decide_eq_true_eq, and_assoc]

theorem State.canAct_of (hinuse : (s.thr t).inuse = true) (hsp : t ∉ s.spaused) (hmp : t ∉ s.mpaused)
    (hdebug : s.dbg.indbg = false ∨ t = 0) : s.canAct t = true := by
  simp [State.canAct, hinuse, hsp, hmp, hdebug]

theorem perform_event (hdue : t = 0 → s.debugDue = false) (hopen : s.eventOpen t q = true) :
    perform s (.event t q) = .next (s.eventEnter t q) := by
  rw [perform, State.threadMove_of_not_due hdue, if_pos hopen]

theorem perform_interrupt (hdue : t = 0 → s.debugDue = false) (hopen : s.interruptOpen t q = true) :
    perform s (.interrupt t q) = .next (s.interruptEnter t q) := by
  rw [perform, State.threadMove_of_not_due hdue, if_pos hopen]

end Entries

/-- Settles O53: the event is open, so that the move is the entry of R655. -/
theorem eventEntry : Obligations.EventEntry := by
  intro s t q rest hagenda hdue hinuse hsp hmp hdebug heeble hq hthread henb hmode hready
  have hopen : s.eventOpen t q = true := by
    rw [State.eventOpen, State.canAct_of hinuse hsp hmp hdebug, heeble,
      State.requests_iff.2 ⟨hthread, henb, hmode, hq, hready⟩]
    rfl
  rw [step_of_agenda (State.threads_ne_nil_of_inuse hinuse) hagenda,
    perform_event (s := { s with agenda := rest }) hdue ((s.opens_agenda rest (.event t q)).trans hopen)]
  refine ⟨_, rfl, fun e he => (List.mem_filter.1 he).1, ?_⟩
  rw [State.eventEnter, State.detach_updThr_jumpThr]
  cases q <;> rfl

/-- Settles O54: the interrupt is open, so that the move is the entry of R657. -/
theorem interruptEntry : Obligations.InterruptEntry := by
  intro s t q rest hagenda hdue hinuse hsp hmp hdebug hieble hq hthread henb hmode hready
  have hopen : s.interruptOpen t q = true := by
    rw [State.interruptOpen, State.canAct_of hinuse hsp hmp hdebug, hieble,
      State.requests_iff.2 ⟨hthread, henb, hmode, hq, hready⟩]
    rfl
  rw [step_of_agenda (State.threads_ne_nil_of_inuse hinuse) hagenda,
    perform_interrupt (s := { s with agenda := rest }) hdue ((s.opens_agenda rest (.interrupt t q)).trans hopen)]
  refine ⟨_, rfl, fun e he => (List.mem_filter.1 he).1, ?_⟩
  rw [State.interruptEnter, State.detach_updThr_jumpThr]
  cases q <;> rfl

/-! ### Debug entry (R592, R593) -/

/-- Debug entry as one replacement, as the other entries are, with what the debug registers keep of thread 0. -/
theorem State.debugEnter_eq (s : State) (cause : Word) : s.debugEnter cause = { s.withThr 0 { s.thr 0 with
      pc := s.plat.debugEntry, sr := (s.thr 0).sr.debugEntry } with
    stale := s.stale.filter fun e => e.thread != 0
    dbg := { s.dbg with dspc := (s.thr 0).pc, dssr := (s.thr 0).sr.toWord, dtype := cause, indbg := true }
    ports := s.ports.map fun p => { p with waiter := forget 0 p.waiter, pw := forget 0 p.pw }
    timers := s.timers.map fun x => { x with waiter := forget 0 x.waiter }
    chans := s.chans.map fun c => { c with waiterIn := forget 0 c.waiterIn, waiterOut := forget 0 c.waiterOut }
    locks := s.locks.map fun l => { l with queue := l.queue.filter fun q => q != 0 } } :=
  State.detach_updThr_jumpThr { s with dbg := { s.dbg with
    dspc := (s.thr 0).pc, dssr := (s.thr 0).sr.toWord, dtype := cause, indbg := true } } 0
    (fun t => { t with sr := t.sr.debugEntry }) s.plat.debugEntry

theorem State.debugCanEnter_of {s : State} (hinuse : (s.thr 0).inuse = true) (hsp : 0 ∉ s.spaused)
    (hmp : 0 ∉ s.mpaused) : s.debugCanEnter = true := by
  simp [State.debugCanEnter, hinuse, hsp, hmp]

/-- Whatever the move of thread 0, a pending request goes before it (R651). -/
theorem perform_of_debugDue {s : State} {m : Move} (hm : m.thread = some 0) (hdue : s.debugDue = true) :
    perform s m = .next s.serveDebug := by
  cases m with
  | issue | event | interrupt | resume => cases hm; simp [perform, State.threadMove, hdue]
  | _ => cases hm

/-- Settles O56: DCALL and the service of a request are the same debug entry, made where thread 0 can take it. -/
theorem debugEntry : Obligations.DebugEntry := by
  intro s hinuse hsp hmp
  have hcan := State.debugCanEnter_of hinuse hsp hmp
  refine ⟨fun hout => ?dcall, fun hin => ?refused, fun cause rest q m hmem hagenda hout hrequest => ?request⟩
  case dcall =>
    have hexec : exec .dcall s = .next (s.debugEnter s.plat.dtypeDcall) := if_pos (by rw [hout, hcan]; rfl)
    refine ⟨_, hexec, fun e he => (List.mem_filter.1 he).1, ?_⟩
    rw [State.debugEnter_eq]
    rfl
  case refused => exact if_neg (by rw [hin]; simp)
  case request =>
    have hm : m.thread = some 0 := by
      simp only [List.mem_cons, List.not_mem_nil, or_false] at hmem
      obtain rfl | rfl | rfl | rfl := hmem <;> rfl
    have hdue : s.debugDue = true := by rw [State.debugDue, hrequest, hout, hcan]; rfl
    rw [step_of_agenda (State.threads_ne_nil_of_inuse hinuse) hagenda,
      perform_of_debugDue (s := { s with agenda := rest }) hm hdue]
    refine ⟨_, rfl, fun e he => (List.mem_filter.1 he).1, ?_⟩
    rw [State.serveDebug, State.debugEnter_eq, hrequest]
    rfl

end Sys2Proof.Machine
end

section
/-! The debug and processor-state instructions (R594 to R600): in debug mode each moves a value between a thread and the
debug registers, and a processor-state register read gives what was last written to it. -/
namespace Sys2Proof.Machine

/-! ### Registers by their numbers (R33, R83, R597) -/

theorem Thread.byNumber_val (t : Thread) (k : Reg) : t.byNumber k.val = some (t.get k) := by
  have hk := k.isLt
  have hreg : regOf k.val = k := Fin.ofNat_val_eq_self k
  rw [Thread.byNumber, if_pos hk, hreg] <;> omega

theorem Thread.byNumber_of_lt (t : Thread) {n : Nat} (h : 24 < n) : t.byNumber n = none := by
  rw [Thread.byNumber, if_neg] <;> omega

theorem exec_dret (s : State) : exec .dret s = execDret s := rfl
theorem exec_dentsp (s : State) : exec .dentsp s = execDentsp s := rfl
theorem exec_drestsp (s : State) : exec .drestsp s = execDrestsp s := rfl
theorem exec_dgetreg (src : Reg) (s : State) : exec (.dgetreg src) s = execDgetreg src s := rfl

section DebugMode

variable {s : State} {src : Reg}

theorem State.debugReg_of_lt (h : s.dbg.dtid.toNat < s.threads.length) :
    s.debugReg = (s.thr s.dbg.dtid.toNat).byNumber s.dbg.dtreg.toNat := if_pos h

/-- dtid names no thread, or dtreg no register (R597). -/
theorem State.debugReg_eq_none (h : s.threads.length ≤ s.dbg.dtid.toNat ∨ 24 < s.dbg.dtreg.toNat) :
    s.debugReg = none := by
  rw [State.debugReg]
  split
  next hlt => exact Thread.byNumber_of_lt _ (h.resolve_left (by omega))
  next => rfl

theorem execDgetreg_some (hin : s.dbg.indbg = true) {v : Word} (hreg : s.debugReg = some v) :
    ∃ t, exec (.dgetreg src) s = .next t ∧ s.becomes t (s.cur.put src v) := by
  have hexec : exec (.dgetreg src) s = writeReg src v s := by
    rw [exec_dgetreg, execDgetreg, inDebug_on hin, hreg]
  rw [hexec]
  exact writeReg_spec s src v

theorem execDgetreg_none (hin : s.dbg.indbg = true) (hreg : s.debugReg = none) :
    exec (.dgetreg src) s =
      .next { s.withThr s.tid (s.cur.put src (Config.freeWord s.free)) with free := s.free + 1 } := by
  rw [exec_dgetreg, execDgetreg, inDebug_on hin, hreg, writeReg, State.setX_eq]
  rfl

/-! ### Leaving debug mode, and the debug stack (R594 to R596) -/

theorem execDret_eq (hin : s.dbg.indbg = true) : exec .dret s = .next { s.withThr 0 { s.thr 0 with
      pc := s.dbg.dspc, sr := SR.restored s.dbg.dssr } with
    dbg := { s.dbg with indbg := false }, stale := s.stale.filter fun e => e.thread != 0 } := by
  rw [exec_dret, execDret, inDebug_on hin, State.jumpThr, State.updThr_updThr, State.updThr_eq]
  rfl

theorem execDentsp_eq (hin : s.dbg.indbg = true) : exec .dentsp s = .next
    { s.withThr s.tid (s.cur.put sp s.plat.ramEndSp) with dbg := { s.dbg with dssp := s.x sp } } := by
  rw [exec_dentsp, execDentsp, inDebug_on hin, State.setX_eq]
  rfl

theorem execDrestsp_eq (hin : s.dbg.indbg = true) : exec .drestsp s = writeReg sp s.dbg.dssp s := inDebug_on hin _

end DebugMode

/-- Settles O57: out of debug mode each form raises at once; in it each is one replacement, and the register that
DGETREG reads is the one its number names. -/
theorem debugInstructions : Obligations.DebugInstructions := by
  intro s src
  refine ⟨fun hout => ?out, fun hin => ⟨?dret, execDentsp_eq hin, ?drestsp,
    fun hthread => ⟨fun k hk => ?operand, ?named⟩, fun hnone => ?none⟩⟩
  case out =>
    simp only [List.forall_mem_cons, List.not_mem_nil, false_imp_iff, implies_true, and_true]
    rw [exec_dret, exec_dentsp, exec_drestsp, exec_dgetreg, execDret, execDentsp, execDrestsp, execDgetreg]
    exact ⟨inDebug_off hout _, inDebug_off hout _, inDebug_off hout _, inDebug_off hout _⟩
  case dret => exact ⟨_, execDret_eq hin, fun e he => (List.mem_filter.1 he).1, rfl⟩
  case drestsp => rw [execDrestsp_eq hin]; exact writeReg_spec s sp s.dbg.dssp
  case operand =>
    exact execDgetreg_some hin (by rw [State.debugReg_of_lt hthread, hk, Thread.byNumber_val])
  case named =>
    have hread {n : Nat} {v : Word} (hv : (s.thr s.dbg.dtid.toNat).byNumber n = some v) (hn : s.dbg.dtreg.toNat = n) :
        ∃ t, exec (.dgetreg src) s = .next t ∧ s.becomes t (s.cur.put src v) :=
      execDgetreg_some hin (by rw [State.debugReg_of_lt hthread, hn, hv])
    simp only [List.forall_mem_cons, List.not_mem_nil, false_imp_iff, implies_true, and_true]
    exact ⟨hread rfl, hread rfl, hread rfl, hread rfl, hread rfl, hread rfl, hread rfl, hread rfl, hread rfl⟩
  case none => exact ⟨_, _, execDgetreg_none hin (State.debugReg_eq_none hnone), rfl⟩

/-! ### Processor-state registers (R598 to R600) -/

section ProcessorState

/-- An identifier of type 11 with a zero high half names the first register of its number (R598). -/
theorem State.psReg_of_named {s : State} {r : Word} (hnamed : r.toNat % 256 = 11 ∧ r.toNat / 65536 = 0) :
    s.psReg r = s.plat.psRegs.find? fun q => decide (q.number = r.toNat / 256 % 256) := by
  have htype : resType r = 11 := by rw [resType_eq]; omega
  have hspecific : resSpecific r = 0 := by rw [resSpecific_eq]; omega
  rw [State.psReg, htype, hspecific, resNum_eq]
  rfl

theorem State.psReg_eq_none {s : State} {r : Word}
    (h : ¬(r.toNat % 256 = 11 ∧ r.toNat / 65536 = 0) ∨ ∀ p ∈ s.plat.psRegs, p.number ≠ r.toNat / 256 % 256) :
    s.psReg r = none := by
  by_cases hnamed : r.toNat % 256 = 11 ∧ r.toNat / 65536 = 0
  · rw [State.psReg_of_named hnamed, List.find?_eq_none]
    simpa using h.resolve_left (not_not_intro hnamed)
  · have hr := r.isLt
    rw [State.psReg, resType_eq, resSpecific_eq, if_neg]
    simp only [Bool.and_eq_true, decide_eq_true_eq]
    omega

theorem psWriteBad_iff {pl : Platform} {q : PsReg} {v : Word} : psWriteBad pl q v = true ↔
    q.readOnly = true ∨ (q.kind = .rambase ∧ v.toNat = pl.romBase % 2 ^ 32) := by
  rw [psWriteBad, word, Bool.or_eq_true, Bool.and_eq_true, decide_eq_true_eq, decide_eq_true_eq, ← BitVec.toNat_inj,
    BitVec.toNat_ofNat]

/-! #### Cells: the registers with no name -/

theorem cellOf_cons_same (cells : List (Nat × Word)) (n : Nat) (v : Word) : cellOf ((n, v) :: cells) n = v := by
  simp [cellOf]

/-- Writing one cell leaves the others. -/
theorem cellOf_write_ne (cells : List (Nat × Word)) {n k : Nat} (v : Word) (h : k ≠ n) :
    cellOf ((n, v) :: cells.filter fun e => e.1 != n) k = cellOf cells k := by
  have hfind : (cells.filter fun e => e.1 != n).find? (fun e => e.1 = k) = cells.find? fun e => e.1 = k := by
    rw [List.find?_filter]
    congr 1
    funext e
    by_cases he : e.1 = k <;> simp [he, h]
  rw [cellOf, List.find?_cons_of_neg (by simpa using h.symm), hfind, cellOf]

/-! #### Reads after a write -/

variable (g : Debug) (q : PsReg) (v : Word)

/-- The debug register whose bit 0 is kept apart gives back all of the word (R84). -/
theorem extract_append_low (w : Word) : w.extractLsb' 1 31 ++ BitVec.ofBool (w.getLsbD 0) = w := by
  apply BitVec.eq_of_getLsbD_eq
  intro i hi
  rw [BitVec.getLsbD_append]
  cases i with
  | zero => simp
  | succ i => simp [Nat.add_comm]; omega

theorem Debug.readPs_writePs_same : (g.writePs q v).readPs q = v := by
  cases hkind : q.kind with simp only [Debug.readPs, Debug.writePs, hkind]
  | dbgint => exact extract_append_low v
  | cell => exact cellOf_cons_same _ _ _

/-- A write reaches the registers of its own kind alone, and of the cells the one of its number. -/
theorem Debug.readPs_writePs_ne {p : PsReg} (h : p.kind ≠ q.kind ∨ (p.kind = .cell ∧ p.number ≠ q.number)) :
    (g.writePs q v).readPs p = g.readPs p := by
  by_cases hkind : p.kind = q.kind
  · obtain ⟨hcell, hnumber⟩ := h.resolve_left (not_not_intro hkind)
    simp only [Debug.readPs, Debug.writePs, hcell, hkind ▸ hcell]
    exact cellOf_write_ne _ _ hnumber
  · -- Each kind but a cell is one field, which no write of another kind reaches.
    cases hq : q.kind <;> simp only [Debug.readPs, Debug.writePs, hq] <;> grind

theorem Debug.request_writePs : (g.writePs q v).request = g.request := by
  unfold Debug.writePs
  split <;> rfl

end ProcessorState

/-! #### GETPS and SETPS -/

section PsForms

variable {s : State} {d r src : Reg} {q : PsReg}

theorem exec_getps (d r : Reg) (s : State) : exec (.getps d r) s = execGetps d r s := rfl
theorem exec_setps (r src : Reg) (s : State) : exec (.setps r src) s = execSetps r src s := rfl

theorem exec_getps_some (hreg : s.psReg (s.x r) = some q) : exec (.getps d r) s = writeReg d (s.dbg.readPs q) s := by
  rw [exec_getps, execGetps, hreg]

theorem exec_getps_none (hreg : s.psReg (s.x r) = none) : exec (.getps d r) s = raised .illegalPs (s.x r) s := by
  rw [exec_getps, execGetps, hreg]

theorem exec_setps_some (hreg : s.psReg (s.x r) = some q) : exec (.setps r src) s =
    if psWriteBad s.plat q (s.x src) then raised .illegalPs (s.x r) s
    else .next { s with dbg := s.dbg.writePs q (s.x src) } := by
  rw [exec_setps, execSetps, hreg]

theorem exec_setps_none (hreg : s.psReg (s.x r) = none) : exec (.setps r src) s = raised .illegalPs (s.x r) s := by
  rw [exec_setps, execSetps, hreg]

end PsForms

/-- Settles O58: the identifier names the first register of its number or none, and a register that may be written reads
as what was written, the others as before. -/
theorem psRegisters : Obligations.PsRegisters := by
  intro s d r src q n named
  refine ⟨fun hnamed hfind => ⟨?getps, fun hbad => ?bad, fun hwritable hrom => ?setps⟩, fun hunnamed => ?unnamed⟩
  case getps =>
    rw [exec_getps_some ((State.psReg_of_named hnamed).trans hfind)]
    exact writeReg_spec s d _
  case bad =>
    rw [exec_setps_some ((State.psReg_of_named hnamed).trans hfind), if_pos (psWriteBad_iff.2 hbad)]
    exact raised_spec s .illegalPs _
  case setps =>
    have hgood : ¬psWriteBad s.plat q (s.x src) = true := by
      rw [psWriteBad_iff, hwritable]
      exact fun h => hrom (h.resolve_left Bool.false_ne_true)
    rw [exec_setps_some ((State.psReg_of_named hnamed).trans hfind), if_neg hgood]
    exact ⟨_, rfl, s.dbg.readPs_writePs_same q _, s.dbg.request_writePs q _, fun p => s.dbg.readPs_writePs_ne q _⟩
  case unnamed =>
    simp only [List.forall_mem_cons, List.not_mem_nil, false_imp_iff, implies_true, and_true]
    rw [exec_getps_none (State.psReg_eq_none hunnamed), exec_setps_none (State.psReg_eq_none hunnamed)]
    exact ⟨raised_spec s .illegalPs _, raised_spec s .illegalPs _⟩

end Sys2Proof.Machine
end

section
/-! Long arithmetic and checksums (R620 to R628): each long form writes the two words of one number to two destinations,
and the checksum instructions are a number of turns of one loop. -/
namespace Sys2Proof.Machine

/-! ### One register for both destinations (R620) -/

theorem State.eitherOf_eq_or (s : State) (a b : Word) : s.eitherOf a b = a ∨ s.eitherOf a b = b := by
  rw [State.eitherOf]
  split
  · exact .inl rfl
  · exact .inr rfl

/-- A doubled destination holds one of the two results (R620 c). -/
theorem writePair_same {d e : Reg} (h : d = e) (v w : Word) (s : State) :
    ∃ t c, writePair d e v w s = .next t ∧ t = { s.withThr s.tid (s.cur.put d c) with free := t.free } ∧
      (c = v ∨ c = w) := by
  refine ⟨_, s.eitherOf v w, if_pos h, ?_, s.eitherOf_eq_or v w⟩
  rw [State.setX_eq]
  rfl

/-! ### The two words of a number (R621 to R626) -/

theorem highWord_word_toNat (n : Nat) : (highWord n).toNat * 2 ^ 32 + (word n).toNat = n % 2 ^ 64 := by
  simp only [highWord, word, BitVec.toNat_ofNat]
  omega

/-- A product of two words and two words besides need no third word. -/
theorem mul_add_add_lt {x y v w : Nat} (hx : x < 2 ^ 32) (hy : y < 2 ^ 32) (hv : v < 2 ^ 32) (hw : w < 2 ^ 32) :
    x * y + v + w < 2 ^ 64 := by
  have hprod : x * y ≤ (2 ^ 32 - 1) * (2 ^ 32 - 1) := Nat.mul_le_mul (by omega) (by omega)
  omega

theorem bits_zero_one (w : Word) : bits w 0 1 = w.toNat % 2 := by simp [bits]

theorem boolWord_toNat (b : Bool) : (boolWord b).toNat = b.toNat := by cases b <;> rfl

/-- The difference and the borrow of LSUB (R622): the difference is short of the exact one by the borrow. -/
theorem sub_borrow {x y : Word} {b : Nat} (hb : b < 2) :
    (x - y - word b).toNat + y.toNat + b =
      x.toNat + (boolWord (decide (x.toNat < y.toNat + b))).toNat * 2 ^ 32 := by
  have hx := x.isLt
  have hy := y.isLt
  rw [boolWord_toNat, word, BitVec.toNat_sub, BitVec.toNat_sub, BitVec.toNat_ofNat]
  by_cases h : x.toNat < y.toNat + b <;> simp only [h, decide_true, decide_false, Bool.toNat_true, Bool.toNat_false] <;>
    omega

section Forms

variable (s : State) (d e x y v w : Reg)

theorem execLadd_pair : ∃ a b, exec (.ladd d e x y v) s = writePair d e a b s ∧
    b.toNat * 2 ^ 32 + a.toNat = (s.x x).toNat + (s.x y).toNat + (s.x v).toNat % 2 := by
  refine ⟨_, _, rfl, ?_⟩
  rw [highWord_word_toNat, bits_zero_one]
  have := (s.x x).isLt
  have := (s.x y).isLt
  omega

theorem execLsub_pair : ∃ a b, exec (.lsub d e x y v) s = writePair d e a b s ∧
    (a.toNat + (s.x y).toNat + (s.x v).toNat % 2 = (s.x x).toNat + b.toNat * 2 ^ 32 ∧ b.toNat < 2) := by
  refine ⟨_, _, rfl, ?_, ?_⟩
  · rw [bits_zero_one]
    exact sub_borrow (Nat.mod_lt _ (by omega))
  · rw [boolWord_toNat]
    exact Bool.toNat_lt _

theorem execLmul_pair : ∃ a b, exec (.lmul d e x y v w) s = writePair d e a b s ∧
    a.toNat * 2 ^ 32 + b.toNat = (s.x x).toNat * (s.x y).toNat + (s.x v).toNat + (s.x w).toNat := by
  refine ⟨_, _, rfl, ?_⟩
  rw [highWord_word_toNat]
  exact Nat.mod_eq_of_lt (mul_add_add_lt (s.x x).isLt (s.x y).isLt (s.x v).isLt (s.x w).isLt)

theorem execMaccu_pair : ∃ a b, exec (.maccu d e x y) s = writePair d e a b s ∧ a.toNat * 2 ^ 32 + b.toNat =
    ((s.x d).toNat * 2 ^ 32 + (s.x e).toNat + (s.x x).toNat * (s.x y).toNat) % 2 ^ 64 :=
  ⟨_, _, rfl, highWord_word_toNat _⟩

theorem execMaccs_pair : ∃ a b, exec (.maccs d e x y) s = writePair d e a b s ∧
    ((a.toNat * 2 ^ 32 + b.toNat : Nat) : Int) =
      (((s.x d).toNat * 2 ^ 32 + (s.x e).toNat : Nat) + (s.x x).toInt * (s.x y).toInt) % 2 ^ 64 := by
  refine ⟨_, _, rfl, ?_⟩
  rw [highWord_word_toNat, Nat.mod_eq_of_lt (BitVec.isLt _), BitVec.toNat_ofInt]
  exact Int.toNat_of_nonneg (Int.emod_nonneg _ (by decide))

/-- LDIVU completes where the quotient fits in a word (R623). -/
theorem execLdivu_pair {s : State} {d e x y v : Reg} (h : (s.x v).toNat < (s.x y).toNat) :
    exec (.ldivu d e x y v) s = writePair d e
      (word (((s.x v).toNat * 2 ^ 32 + (s.x x).toNat) / (s.x y).toNat))
      (word (((s.x v).toNat * 2 ^ 32 + (s.x x).toNat) % (s.x y).toNat)) s := by
  have hzero : s.x y ≠ 0#32 := fun h0 => by simp [h0] at h
  refine if_neg ?_
  simp [hzero, BitVec.ule, h]

end Forms

/-- Settles O59: each form writes a pair whose two words make up its exact result, to two registers or to one. -/
theorem longArithmetic : Obligations.LongArithmetic := by
  intro s d e x y v w n forms
  have hforms : ∀ p ∈ forms, ∃ a b, exec p.1 s = writePair d e a b s ∧ p.2 a.toNat b.toNat := by
    simp only [forms, List.forall_mem_cons, List.not_mem_nil, false_imp_iff, implies_true, and_true]
    exact ⟨execLadd_pair s d e x y v, execLsub_pair s d e x y v, execLmul_pair s d e x y v w,
      execMaccu_pair s d e x y, execMaccs_pair s d e x y⟩
  refine ⟨fun hne p hp => ?two, fun hne hlt => ?divTwo, fun heq p hp => ?one, fun heq hlt => ?divOne⟩
  case two =>
    obtain ⟨a, b, hexec, hresult⟩ := hforms p hp
    obtain ⟨t, ht, hbecomes⟩ := writePair_ne hne a b s
    exact ⟨t, a, b, hexec.trans ht, hbecomes, hresult⟩
  case divTwo => rw [execLdivu_pair hlt]; exact writePair_ne hne _ _ s
  case one =>
    obtain ⟨a, b, hexec, hresult⟩ := hforms p hp
    obtain ⟨t, c, ht, hframe, hc⟩ := writePair_same heq a b s
    exact ⟨t, a, b, c, hexec.trans ht, hframe, hresult, hc⟩
  case divOne => rw [execLdivu_pair hlt]; exact writePair_same heq _ _ s

/-! ### The CRC loop (R627, R628) -/

/-- One turn of the loop, on the checksum and the data that are left. -/
def crcTurn (p : Word) (q : Word × Word) : Word × Word :=
  let n := (if q.2.getLsbD 0 then 0x80000000#32 else 0#32) ||| q.1 >>> 1
  (if q.1.getLsbD 0 then n ^^^ p else n, q.2 >>> 1)

theorem shiftLeft_31 (d : Word) : d <<< 31 = if d.getLsbD 0 then 0x80000000#32 else 0#32 := by
  have hbit : d.getLsbD 0 = decide (d.toNat % 2 = 1) := by simp [BitVec.getLsbD]
  apply BitVec.eq_of_toNat_eq
  rw [BitVec.toNat_shiftLeft, hbit, Nat.shiftLeft_eq]
  by_cases h : d.toNat % 2 = 1
  · rw [if_pos (decide_eq_true h), BitVec.toNat_ofNat]; omega
  · rw [if_neg (by simpa using h), BitVec.toNat_ofNat]; omega

/-- The loop of the model is the turn repeated. -/
theorem crcSteps_eq_iterate (n : Nat) (c d p : Word) : crcSteps n c d p = ((crcTurn p)^[n] (c, d)).1 := by
  induction n generalizing c d with
  | zero => rfl
  | succ n ih =>
    rw [crcSteps, shiftLeft_31, ih, Function.iterate_succ_apply]
    rfl

/-- Each turn takes one bit off the data. -/
theorem crcTurn_iterate_snd (p : Word) (n : Nat) (q : Word × Word) : ((crcTurn p)^[n] q).2 = q.2 >>> n := by
  induction n with
  | zero => simp
  | succ n ih => rw [Function.iterate_succ_apply', crcTurn, ih, BitVec.shiftRight_add]

/-- Eight turns leave what CRC8 writes to its two destinations. -/
theorem crcTurn_iterate_eight (c d p : Word) : (crcTurn p)^[8] (c, d) = (crcSteps 8 c d p, d >>> 8) :=
  Prod.ext (crcSteps_eq_iterate 8 c d p).symm (crcTurn_iterate_snd p 8 (c, d))

theorem State.tid_lt_setX {s : State} (h : s.tid < s.threads.length) (k : Reg) (v : Word) :
    (s.setX k v).tid < (s.setX k v).threads.length := by
  rw [State.setX_eq]
  simpa [State.withThr] using h

section Crc

variable {s : State} {o r d p : Reg}

theorem exec_crc : exec (.crc r d p) s = writeReg r ((crcTurn (s.x p))^[32] (s.x r, s.x d)).1 s := by
  rw [← crcSteps_eq_iterate]
  rfl

theorem exec_crc8 : exec (.crc8 o r d p) s =
    writePair o r (s.x d >>> 8) ((crcTurn (s.x p))^[8] (s.x r, s.x d)).1 s := by
  rw [← crcSteps_eq_iterate]
  rfl

/-- CRC8 to two registers: o and r hold the data and the checksum after eight turns, and p is as before. -/
theorem exec_crc8_iterate (htid : s.tid < s.threads.length) (hor : o ≠ r) (hop : o ≠ p) (hrp : r ≠ p) :
    ∃ t, exec (.crc8 o r d p) s = .next t ∧ t.tid < t.threads.length ∧ t.x p = s.x p ∧
      (t.x r, t.x o) = (crcTurn (s.x p))^[8] (s.x r, s.x d) := by
  have hread (c v : Word) (k : Reg) :
      ((s.setX r c).setX o v).x k = if k = o then v else if k = r then c else s.x k := by
    rw [State.x_setX _ (State.tid_lt_setX htid r c), State.x_setX s htid]
  refine ⟨_, exec_crc8.trans (if_neg hor), State.tid_lt_setX (State.tid_lt_setX htid r _) o _, ?_, ?_⟩
  · rw [hread, if_neg hop.symm, if_neg hrp.symm]
  · rw [hread, hread, if_neg hor.symm, if_pos rfl, if_pos rfl, crcTurn_iterate_eight]

end Crc

/-- Settles O60: the instructions are turns of the loop, and 32 turns are eight, four times. -/
theorem checksums : Obligations.Checksums := by
  intro s o r d p turn
  have hturn : turn = crcTurn (s.x p) := rfl
  rw [hturn]
  refine ⟨?crc, fun hne => ?two, fun heq => ?one, fun htid hor hop hrp hrd => ?four⟩
  case crc => rw [exec_crc]; exact writeReg_spec s r _
  case two => rw [exec_crc8]; exact writePair_ne hne _ _ s
  case one =>
    subst heq
    obtain ⟨t, c, ht, hframe, hc⟩ := writePair_same rfl (s.x d >>> 8) ((crcTurn (s.x p))^[8] (s.x o, s.x d)).1 s
    exact ⟨t, c, exec_crc8.trans ht, hframe, hc.symm⟩
  case four =>
    obtain ⟨t1, h1, htid1, hp1, hq1⟩ := exec_crc8_iterate (d := d) htid hor hop hrp
    obtain ⟨t2, h2, htid2, hp2, hq2⟩ := exec_crc8_iterate (d := o) htid1 hor hop hrp
    obtain ⟨t3, h3, htid3, hp3, hq3⟩ := exec_crc8_iterate (d := o) htid2 hor hop hrp
    obtain ⟨t4, h4, htid4, hp4, hq4⟩ := exec_crc8_iterate (d := o) htid3 hor hop hrp
    refine ⟨t1, t2, t3, t4, _, h1, h2, h3, h4, exec_crc, ?_⟩
    rw [hp3, hp2, hp1, hq3, hp2, hp1, hq2, hp1, hq1, ← Function.iterate_add_apply, ← Function.iterate_add_apply,
      ← Function.iterate_add_apply] at hq4
    rw [State.x_setX s htid, if_pos rfl]
    exact congrArg Prod.fst hq4

end Sys2Proof.Machine
end
